-- ==== Sys2Proof/Word.lean ====
section
/-! DEFINITION. The word types of EPD-Spectra CORE: bytes of the planes and of the serial link
(20_memory.md R51), 24-bit colours (30_encoding.md R74) and 32-bit operands and results
(30_encoding.md R70). -/

namespace Sys2Proof

/-- `u8`: a plane byte, a byte on the serial link, an operation code. -/
abbrev Byte := BitVec 8

/-- `u24`: the operand `C` of a request, an RGB24 colour. -/
abbrev U24 := BitVec 24

/-- `u32`: the operands `A`, `B` and the results `R0`, `R1`. -/
abbrev Word := BitVec 32

end Sys2Proof
end

