-- ==== Sys2Proof/Config.lean ====
section
/-! DEFINITION. What construction fixes (00_scope.md R6 to R10) and the values the environment
chooses (00_scope.md R10). Everything `opaque` here has no body: no proof can learn its value. -/

namespace Sys2Proof

/-- The parameter `OPC` (00_scope.md R8): the opcode of each of the five frames whose opcode the
source does not assign. -/
structure OpcMap where
  bufBlack : Byte
  bufRed   : Byte
  powerOn  : Byte
  refresh  : Byte
  powerOff : Byte
  deriving DecidableEq, Repr, Inhabited

/-- The five opcodes in the order of the five commands. -/
def OpcMap.codes (o : OpcMap) : List Byte :=
  [o.bufBlack, o.bufRed, o.powerOn, o.refresh, o.powerOff]

/-- The opcodes `OPC` maps onto (00_scope.md R8). -/
def openOpcodes : List Byte := [0x02, 0x04, 0x10, 0x12, 0x13]

/-- `OPC` is a bijection onto `openOpcodes`: five different values, each one of the five. -/
abbrev OpcMap.Legal (o : OpcMap) : Prop :=
  o.codes.Nodup ∧ ∀ b ∈ o.codes, b ∈ openOpcodes

/-- The default `OPC` of 00_scope.md R8, which spec/opcode_table.json also prints. -/
def OpcMap.standard : OpcMap :=
  { bufBlack := 0x10, bufRed := 0x13, powerOn := 0x04, refresh := 0x12, powerOff := 0x02 }

/-- The parameter `classify_rgb` (00_scope.md R9) as plain data: the default of 40_color.md R105,
or a classifier of which only the laws of 40_color.md R104 are known (log 6). -/
inductive Classifier where
  | standard
  | lawful
  deriving DecidableEq, Repr, Inhabited

/-- The construction values (70_reset_and_hazards.md R240), but for `CHUNK`, which is a state
element of its own (10_state.md R26). `maxXfer = none` is an unbounded transfer limit. -/
structure Params where
  w          : Nat
  h          : Nat
  maxXfer    : Option Nat
  opc        : OpcMap
  classifier : Classifier
  deriving DecidableEq, Repr, Inhabited

/-- `N = H * (W / 8)`, the byte length of each plane (00_scope.md R6). -/
def Params.n (p : Params) : Nat := p.h * (p.w / 8)

/-- The constraints of 00_scope.md R6 on the geometry, R7 on `MAX_XFER` and R8 on `OPC`. -/
abbrev Params.Legal (p : Params) : Prop :=
  p.w % 8 = 0 ∧ 8 ≤ p.w ∧ 1 ≤ p.h ∧ p.w ≤ 2 ^ 31 - 1 ∧ p.h ≤ 2 ^ 31 - 1 ∧ p.n ≤ 2 ^ 32 - 1 ∧
    p.maxXfer ≠ some 0 ∧ p.opc.Legal

/-- A legal `CHUNK` is 0 or at most `MAX_XFER` (00_scope.md R7). -/
abbrev Params.ChunkLegal (p : Params) (c : Word) : Prop :=
  c = 0 ∨ p.maxXfer.all (fun m => decide (c.toNat ≤ m)) = true

/-- Free value: which numbers name a value of the parameter type `E` (00_scope.md R10). Nothing can be
proved of it, so `CollabError` is any subset of the numbers that holds 0, of any size (log 4). -/
opaque Config.isErrorTag : Nat → Bool

/-- A collaborator's own error value, a value of the parameter type `E` (00_scope.md R10, D24): the
block only carries it. The type is a free constant of the configuration, like the values below; it is
no field of `Params` because a field cannot be a type and stay plain data (log 4). -/
structure CollabError where
  tag   : Nat
  isTag : tag = 0 ∨ Config.isErrorTag tag = true
  deriving DecidableEq, Repr

/-- The environment's answer to `SetDC`, `SetRST` or `BusWrite` (00_scope.md R17). `delivered` is
the draw `k` of 42_panel_link.md R151, how many bytes of a failed write reached the panel; the two
lines make no use of it. -/
inductive CallAnswer where
  | ok
  | err (e : CollabError) (delivered : Nat)
  deriving DecidableEq, Repr, Inhabited

/-- Free value: some parameters. `Config.params` is what construction takes (log 5). -/
opaque Config.someParams : Params

/-- Free value: some chunk size. `Config.chunk` is what construction takes (log 5). -/
opaque Config.someChunk : Word

/-- The parameters the block is constructed with: any legal value, and nothing but legality can be
proved of it. Every legal value is a value of `Config.someParams`; an illegal one, which yields no
block (70_reset_and_hazards.md R240), is replaced by the smallest geometry. -/
def Config.params : Params :=
  if Config.someParams.Legal then Config.someParams
  else { w := 8, h := 1, maxXfer := none, opc := OpcMap.standard, classifier := .standard }

/-- The chunk size the block is constructed with: any value legal under `Config.params`. -/
def Config.chunk : Word :=
  if Config.params.ChunkLegal Config.someChunk then Config.someChunk else 0

/-- Free value: the answer of the port call with this draw number (00_scope.md R10; log 3). -/
opaque Config.freeCall : Nat → CallAnswer

/-- Free value: the busy level read with this draw number (10_state.md R29; log 3). -/
opaque Config.freeBusy : Nat → Bool

/-- Free value: the chroma of an RGB24 value under a `lawful` classifier (40_color.md R104). -/
opaque Config.freeChroma : U24 → Int

/-- Free value: the redness of an RGB24 value under a `lawful` classifier (40_color.md R104). -/
opaque Config.freeRedness : U24 → Int

/-- Free value: the brightness of an RGB24 value under a `lawful` classifier (40_color.md R104). -/
opaque Config.freeBrightness : U24 → Int

/-- Free value: the red threshold of a `lawful` classifier (40_color.md R104). -/
opaque Config.freeRedThreshold : Int

/-- Free value: the "half-scale" of a `lawful` classifier (40_color.md R104). -/
opaque Config.freeHalfScale : Int

end Sys2Proof
end

