-- ==== Sys2Proof/Syntax.lean ====
section
/-! DEFINITION. The instructions of EPD-Spectra CORE: the 13 host requests of 30_encoding.md R77 and
the 9 panel frames of 30_encoding.md R83, one constructor per row of spec/opcode_table.json; and the
request record of 30_encoding.md R70. -/

namespace Sys2Proof

/-- The colour space (40_color.md R100). -/
inductive Color where
  | white
  | black
  | red
  deriving DecidableEq, Repr

/-- The rotations, clockwise (30_encoding.md R79). -/
inductive Rotation where
  | deg0
  | deg90
  | deg180
  | deg270
  deriving DecidableEq, Repr

/-- The two planes (30_encoding.md R80). -/
inductive Plane where
  | black
  | red
  deriving DecidableEq, Repr

/-- A monochrome colour (30_encoding.md R75). -/
inductive Mono where
  | off
  | on
  deriving DecidableEq, Repr

/-- A host request `(OP, A, B, C)` (30_encoding.md R70). -/
structure Request where
  op : Byte
  a  : Word
  b  : Word
  c  : U24
  deriving DecidableEq, Repr

/-- The causes of a refused request, the complete list of 30_encoding.md R88 (a) to (e). -/
inductive RefuseReason where
  /-- (a) `OP` is not in 30_encoding.md R77 (R87). -/
  | unassignedOp
  /-- (b) a reserved operand bit is not zero (R72). -/
  | reservedOperand
  /-- (c) colour code 3 in a colour field (R73). -/
  | reservedColor
  /-- (d) an `FB.RDBYTE` index `i >= N` (41_framebuffer.md R133). -/
  | indexOutOfRange
  /-- (e) a lifecycle request not legal in the current `LIFE` (43_lifecycle.md R182). -/
  | illegalInLife
  deriving DecidableEq, Repr

/-- The nine panel frames (30_encoding.md R83). -/
inductive Frame where
  | softReset
  | inputTemp
  | activeTemp
  | panelSetting
  | bufBlack
  | bufRed
  | powerOn
  | refresh
  | powerOff
  deriving DecidableEq, Repr

/-- The instructions. Fields are the operands of 30_encoding.md R71; the colour field keeps its two
bits, because code 3 is refused by the instruction itself (40_color.md R101, 41_framebuffer.md
R129). -/
inductive Instr where
  | epdInit
  | epdUpdate
  | epdPoweroff
  | epdHwreset
  | fbNew
  | fbSetrot (r : Rotation)
  | fbGetrot
  | fbSize
  | fbPixel (x y : Word) (c : BitVec 2)
  | fbRdbyte (i : Word) (p : Plane)
  | clrTorgb (c : BitVec 2)
  | clrFromrgb (v : U24)
  | clrFrommono (m : Mono)
  | softReset
  | inputTemp
  | activeTemp
  | panelSetting
  | bufBlack
  | bufRed
  | powerOn
  | refresh
  | powerOff
  deriving DecidableEq, Repr

/-- The instruction that is the emission of a frame. -/
def Frame.instr : Frame → Instr
  | .softReset => .softReset
  | .inputTemp => .inputTemp
  | .activeTemp => .activeTemp
  | .panelSetting => .panelSetting
  | .bufBlack => .bufBlack
  | .bufRed => .bufRed
  | .powerOn => .powerOn
  | .refresh => .refresh
  | .powerOff => .powerOff

/-- The frame an instruction emits; `none` for a host request. -/
def Instr.frame? : Instr → Option Frame
  | .epdInit | .epdUpdate | .epdPoweroff | .epdHwreset => none
  | .fbNew | .fbSetrot _ | .fbGetrot | .fbSize | .fbPixel _ _ _ | .fbRdbyte _ _ => none
  | .clrTorgb _ | .clrFromrgb _ | .clrFrommono _ => none
  | .softReset => some .softReset
  | .inputTemp => some .inputTemp
  | .activeTemp => some .activeTemp
  | .panelSetting => some .panelSetting
  | .bufBlack => some .bufBlack
  | .bufRed => some .bufRed
  | .powerOn => some .powerOn
  | .refresh => some .refresh
  | .powerOff => some .powerOff

/-- The instruction is a host request (30_encoding.md R77), not a panel frame. -/
abbrev Instr.IsHost (i : Instr) : Prop := i.frame? = none

end Sys2Proof
end

