-- ==== Sys2Proof/WellFormed.lean ====
section
/-! DEFINITION. Which instructions are well formed: colour code 3 is reserved (30_encoding.md R73).
Every other field has no reserved value (R78, R79, R80, R75, R74); an `FB.RDBYTE` index is bounded by
the geometry, which is no matter of syntax (41_framebuffer.md R133). -/

namespace Sys2Proof

/-- A colour field of two bits holds a colour (30_encoding.md R73). -/
def colorCodeOk (c : BitVec 2) : Bool := decide (c ≠ 3)

/-- The instruction has no reserved colour code. -/
def Instr.wellFormed : Instr → Bool
  | .fbPixel _ _ c => colorCodeOk c
  | .clrTorgb c => colorCodeOk c
  | .epdInit | .epdUpdate | .epdPoweroff | .epdHwreset => true
  | .fbNew | .fbSetrot _ | .fbGetrot | .fbSize | .fbRdbyte _ _ => true
  | .clrFromrgb _ | .clrFrommono _ => true
  | .softReset | .inputTemp | .activeTemp | .panelSetting => true
  | .bufBlack | .bufRed | .powerOn | .refresh | .powerOff => true

end Sys2Proof
end

