-- ==== Sys2Proof/Decode.lean ====
section
/-! DEFINITION. Decoding and encoding of host requests (30_encoding.md R70 to R80, R87, R89) and of
panel frames (30_encoding.md R82, R83). Both decoders are total and reject by name. -/

namespace Sys2Proof

/-! ### Operand codes -/

/-- The rotation of a code (30_encoding.md R79): all four codes are legal. -/
def Rotation.ofCode (r : BitVec 2) : Rotation :=
  if r = 0 then .deg0 else if r = 1 then .deg90 else if r = 2 then .deg180 else .deg270

/-- The code of a rotation (30_encoding.md R79). -/
def Rotation.code : Rotation → BitVec 2
  | .deg0 => 0
  | .deg90 => 1
  | .deg180 => 2
  | .deg270 => 3

/-- Plane select (30_encoding.md R80): 0 = BLACK, 1 = RED. -/
def Plane.ofCode (p : BitVec 1) : Plane := if p = 0 then .black else .red

/-- The code of a plane (30_encoding.md R80). -/
def Plane.code : Plane → BitVec 1
  | .black => 0
  | .red => 1

/-- Monochrome bit (30_encoding.md R75): 1 = On, 0 = Off. -/
def Mono.ofCode (m : BitVec 1) : Mono := if m = 1 then .on else .off

/-- The code of a monochrome colour (30_encoding.md R75). -/
def Mono.code : Mono → BitVec 1
  | .off => 0
  | .on => 1

/-! ### Host requests -/

/-- A request written as one bit string is `OP || A || B || C` (30_encoding.md R89). -/
def Request.ofBits (v : BitVec 96) : Request :=
  { op := v.extractLsb' 88 8, a := v.extractLsb' 56 32, b := v.extractLsb' 24 32,
    c := v.extractLsb' 0 24 }

/-- The 96-bit string of a request (30_encoding.md R89). -/
def Request.toBits (r : Request) : BitVec 96 := r.op ++ r.a ++ r.b ++ r.c

/-- A request whose reserved operand bits are `reserved = 0` spells `i`; another is refused
(30_encoding.md R72). -/
def orReserved (reservedZero : Bool) (i : Instr) : Except RefuseReason Instr :=
  if reservedZero then .ok i else .error .reservedOperand

/-- All of `A`, `B` and `C` zero: an operation without operands (30_encoding.md R71). -/
def Request.noOperands (r : Request) : Bool := decide (r.a = 0 ∧ r.b = 0 ∧ r.c = 0)

/-- `A`, `B` and the bits of `C` from `k` up zero: an operation with `k` operand bits in `C`. -/
def Request.onlyLowC (r : Request) (k : Nat) : Bool :=
  decide (r.a = 0 ∧ r.b = 0 ∧ r.c >>> k = 0)

/-- The operation of a request: 30_encoding.md R77 selects by `OP`, R71 gives the operand fields, R72
refuses a nonzero reserved bit and R87 an unassigned `OP`. -/
def decodeRequest (r : Request) : Except RefuseReason Instr :=
  if r.op = 0x01 then orReserved r.noOperands .epdInit
  else if r.op = 0x02 then orReserved r.noOperands .epdUpdate
  else if r.op = 0x03 then orReserved r.noOperands .epdPoweroff
  else if r.op = 0x04 then orReserved r.noOperands .epdHwreset
  else if r.op = 0x10 then orReserved r.noOperands .fbNew
  else if r.op = 0x11 then
    orReserved (r.onlyLowC 2) (.fbSetrot (Rotation.ofCode (r.c.extractLsb' 0 2)))
  else if r.op = 0x12 then orReserved r.noOperands .fbGetrot
  else if r.op = 0x13 then orReserved r.noOperands .fbSize
  else if r.op = 0x14 then
    orReserved (decide (r.c >>> 2 = 0)) (.fbPixel r.a r.b (r.c.extractLsb' 0 2))
  else if r.op = 0x15 then
    orReserved (decide (r.b = 0 ∧ r.c >>> 1 = 0))
      (.fbRdbyte r.a (Plane.ofCode (r.c.extractLsb' 0 1)))
  else if r.op = 0x20 then orReserved (r.onlyLowC 2) (.clrTorgb (r.c.extractLsb' 0 2))
  else if r.op = 0x21 then orReserved (decide (r.a = 0 ∧ r.b = 0)) (.clrFromrgb r.c)
  else if r.op = 0x22 then
    orReserved (r.onlyLowC 1) (.clrFrommono (Mono.ofCode (r.c.extractLsb' 0 1)))
  else .error .unassignedOp

/-! ### Panel frames -/

/-- Why bytes are no frame of the block (30_encoding.md R86). -/
inductive FrameReject where
  /-- No opcode byte. -/
  | empty
  /-- The opcode is not one of the eight of 30_encoding.md R83. -/
  | unknownOpcode
  /-- The payload is not the one 30_encoding.md R83 gives the opcode. -/
  | wrongPayload
  deriving DecidableEq, Repr

/-- The frame's opcode (30_encoding.md R83). -/
def Frame.opcode (opc : OpcMap) : Frame → Byte
  | .softReset => 0x00
  | .inputTemp => 0xE5
  | .activeTemp => 0xE0
  | .panelSetting => 0x00
  | .bufBlack => opc.bufBlack
  | .bufRed => opc.bufRed
  | .powerOn => opc.powerOn
  | .refresh => opc.refresh
  | .powerOff => opc.powerOff

/-- The frame's payload (30_encoding.md R83, R85), given the bytes of the two planes. -/
def Frame.payloadOf (black red : List Byte) : Frame → List Byte
  | .softReset => [0x0E]
  | .inputTemp => [0x19]
  | .activeTemp => [0x02]
  | .panelSetting => [0xCF, 0x8D]
  | .bufBlack => black
  | .bufRed => red
  | .powerOn => [0x00]
  | .refresh => [0x00]
  | .powerOff => [0x00]

/-- A payload that must be exactly the given constant (30_encoding.md R85). -/
def orPayload (payloadOk : Bool) (i : Instr) : Except FrameReject Instr :=
  if payloadOk then .ok i else .error .wrongPayload

/-- The frame some bytes are: the opcode selects, and the payload tells the two frames of opcode 0x00
apart (30_encoding.md R83, R84). A plane payload is any payload of at least one byte: its length `N`
is the geometry's. -/
def decodeFrame (opc : OpcMap) : List Byte → Except FrameReject Instr
  | [] => .error .empty
  | op :: p =>
    if op = 0x00 then
      if p = [0x0E] then .ok .softReset
      else orPayload (decide (p = [0xCF, 0x8D])) .panelSetting
    else if op = 0xE5 then orPayload (decide (p = [0x19])) .inputTemp
    else if op = 0xE0 then orPayload (decide (p = [0x02])) .activeTemp
    else if op = opc.bufBlack then orPayload (!p.isEmpty) .bufBlack
    else if op = opc.bufRed then orPayload (!p.isEmpty) .bufRed
    else if op = opc.powerOn then orPayload (decide (p = [0x00])) .powerOn
    else if op = opc.refresh then orPayload (decide (p = [0x00])) .refresh
    else if op = opc.powerOff then orPayload (decide (p = [0x00])) .powerOff
    else .error .unknownOpcode

/-- The frame of a bare opcode byte, which is all that spec/opcode_table.json gives a frame's row: the
first row with that opcode, so 0x00 is SOFT_RESET (DESIGN CHOICE, log 7; unsafe for PANEL_SETTING,
whose row has the same byte, 30_encoding.md R84). -/
def decodeOpcode (opc : OpcMap) (op : Byte) : Except FrameReject Instr :=
  if op = 0x00 then .ok .softReset
  else if op = 0xE5 then .ok .inputTemp
  else if op = 0xE0 then .ok .activeTemp
  else if op = opc.bufBlack then .ok .bufBlack
  else if op = opc.bufRed then .ok .bufRed
  else if op = opc.powerOn then .ok .powerOn
  else if op = opc.refresh then .ok .refresh
  else if op = opc.powerOff then .ok .powerOff
  else .error .unknownOpcode

/-! ### The two encodings together -/

/-- An instruction as it stands on a wire: a host request, or the bytes of a panel frame. -/
inductive Encoded where
  | request (r : Request)
  | frame (bytes : List Byte)
  deriving DecidableEq, Repr

/-- The instruction on a wire, or `none` where the decoder of that wire rejects it. -/
def decode (opc : OpcMap) : Encoded → Option Instr
  | .request r => (decodeRequest r).toOption
  | .frame bytes => (decodeFrame opc bytes).toOption

/-- The request of an operation without operands. -/
def bareRequest (op : Byte) : Encoded := .request { op := op, a := 0, b := 0, c := 0 }

/-- The request of an operation whose only operand is `C`. -/
def cRequest (op : Byte) (c : U24) : Encoded := .request { op := op, a := 0, b := 0, c := c }

/-- The bytes of a frame: its opcode, then its payload (30_encoding.md R82). -/
def Frame.encode (opc : OpcMap) (black red : List Byte) (f : Frame) : Encoded :=
  .frame (f.opcode opc :: f.payloadOf black red)

/-- The encoding of an instruction (30_encoding.md R71, R77, R83): every field the instruction does
not name is zero. `black` and `red` are the bytes of the planes, the payloads of the two buffer
frames. -/
def encode (opc : OpcMap) (black red : List Byte) : Instr → Encoded
  | .epdInit => bareRequest 0x01
  | .epdUpdate => bareRequest 0x02
  | .epdPoweroff => bareRequest 0x03
  | .epdHwreset => bareRequest 0x04
  | .fbNew => bareRequest 0x10
  | .fbSetrot r => cRequest 0x11 (r.code.setWidth 24)
  | .fbGetrot => bareRequest 0x12
  | .fbSize => bareRequest 0x13
  | .fbPixel x y c => .request { op := 0x14, a := x, b := y, c := c.setWidth 24 }
  | .fbRdbyte i p => .request { op := 0x15, a := i, b := 0, c := p.code.setWidth 24 }
  | .clrTorgb c => cRequest 0x20 (c.setWidth 24)
  | .clrFromrgb v => cRequest 0x21 v
  | .clrFrommono m => cRequest 0x22 (m.code.setWidth 24)
  | .softReset => Frame.softReset.encode opc black red
  | .inputTemp => Frame.inputTemp.encode opc black red
  | .activeTemp => Frame.activeTemp.encode opc black red
  | .panelSetting => Frame.panelSetting.encode opc black red
  | .bufBlack => Frame.bufBlack.encode opc black red
  | .bufRed => Frame.bufRed.encode opc black red
  | .powerOn => Frame.powerOn.encode opc black red
  | .refresh => Frame.refresh.encode opc black red
  | .powerOff => Frame.powerOff.encode opc black red

/-! ### The numbering of spec/opcode_table.json -/

/-- `n` bytes of a number, the first in its low eight bits. -/
def bytesOfNat : Nat → Nat → List Byte
  | 0, _ => []
  | n + 1, w => BitVec.ofNat 8 w :: bytesOfNat n (w / 256)

/-- The instruction of a row of spec/opcode_table.json whose bits are `w`: 96 bits are a host request,
8 bits the opcode byte of a frame, and more whole bytes a frame with its payload. The table prints the
default `OPC` (log 7). -/
def decodeTableWord (nbits w : Nat) : Option Instr :=
  if nbits = 96 then decode OpcMap.standard (.request (Request.ofBits (BitVec.ofNat 96 w)))
  else if nbits = 8 then (decodeOpcode OpcMap.standard (BitVec.ofNat 8 w)).toOption
  else if nbits % 8 = 0 then decode OpcMap.standard (.frame (bytesOfNat (nbits / 8) w))
  else none

end Sys2Proof
end

