-- ==== Sys2Proof/Machine/State.lean ====
section
/-! DEFINITION. The state of EPD-Spectra CORE (10_state.md R20), plain data, and its reset
(70_reset_and_hazards.md R241); the reasons a step can stop. -/

namespace Sys2Proof.Machine

open Sys2Proof

/-- `LIFE` (10_state.md R25). -/
inductive Life where
  | inactive
  | active
  deriving DecidableEq, Repr

/-- The code of `LIFE` (10_state.md R25). -/
def Life.code : Life → BitVec 1
  | .inactive => 0
  | .active => 1

/-- The level of an output line as last driven: 0, 1 or X (10_state.md R27). -/
inductive Level where
  | low
  | high
  /-- `X`: not known (10_state.md R27; log 12). -/
  | unknown
  deriving DecidableEq, Repr

/-- The operation a running sequencer runs (10_state.md R30). -/
inductive Opr where
  | init
  | update
  | poweroff
  | hwreset
  deriving DecidableEq, Repr

/-- `SEQ` (10_state.md R30): idle, or the step of the running operation's table and the payload bytes
of the current transfer already sent. -/
inductive Seq where
  | idle
  | run (opr : Opr) (step off : Nat)
  deriving DecidableEq, Repr

/-- The status of a response (30_encoding.md R81). -/
inductive Status where
  | ok
  | busError
  | dcLineError
  | rstLineError
  deriving DecidableEq, Repr

/-- A response `(ST, R0, R1, ERR)` (30_encoding.md R70). -/
structure Response where
  st  : Status
  r0  : Word
  r1  : Word
  err : Option CollabError
  deriving DecidableEq, Repr

/-- A port event (42_panel_link.md R150; written as in 30_encoding.md R92). Levels are `true` for 1. -/
inductive Event where
  /-- `dc:v`, marked `!err` when `ok` is false (R152). -/
  | dc (v : Bool) (ok : Bool)
  /-- `rst:v`, marked `!err` when `ok` is false (R153). -/
  | rst (v : Bool) (ok : Bool)
  /-- `wr:[...]`; `failed = some k` marks `!err`, with the first `k` bytes delivered (R151). -/
  | wr (bytes : List Byte) (failed : Option Nat)
  /-- `busy?v` (R155). -/
  | busy (v : Bool)
  /-- `delay:n` (R154). -/
  | delay (n : Nat)
  deriving DecidableEq, Repr

/-- A plane: its bytes that are not 0x00, by rising index (log 11). -/
abbrev Mem := List Host.Cell

/-- The state: 10_state.md R20 and R34, the construction values, the two ports and the environment's
answers (INVENTORY.md lists each field with its rule). -/
structure State where
  /-- `W`, `H`, `MAX_XFER`, `OPC` and `classify_rgb`, fixed at construction (00_scope.md R6 to R9). -/
  params      : Params
  /-- `CHUNK` (10_state.md R26). -/
  chunk       : Word
  /-- `BLACK` (10_state.md R22). -/
  black       : Mem
  /-- `RED` (10_state.md R23). -/
  red         : Mem
  /-- `ROT` (10_state.md R24). -/
  rot         : Rotation
  /-- `LIFE` (10_state.md R25). -/
  life        : Life
  /-- `DC_OUT` (10_state.md R27). -/
  dcOut       : Level
  /-- `RST_OUT` (10_state.md R28). -/
  rstOut      : Level
  /-- `SEQ` (10_state.md R30). -/
  seq         : Seq
  /-- `REFUSED` (10_state.md R34): `none` is false; the mark keeps the reason of the refusal. -/
  refused     : Option RefuseReason
  /-- The host port: the requests the host presents, in order (30_encoding.md R70; log 2). -/
  requests    : List Request
  /-- The response to the request last accepted (30_encoding.md R70; observation of 00_scope.md R19; log 10). -/
  response    : Option Response
  /-- The transcript of the request last accepted, oldest event first (42_panel_link.md R150; log 10). -/
  transcript  : List Event
  /-- The environment's coming answers to `SetDC`, `SetRST` and `BusWrite` (model, log 3). -/
  callAnswers : List CallAnswer
  /-- The levels the coming `ReadBusy` calls return (model, log 3). -/
  busyAnswers : List Bool
  /-- How many draws were made, the argument of the free values (model, log 3). -/
  draws       : Nat
  deriving DecidableEq, Repr

/-- Why the machine stops with a fault. -/
inductive Fault where
  /-- Raised by `step` when `SEQ` names a step beyond its operation's table, which 10_state.md R31
  excludes. Safe: no run from a constructed state reaches it (log 17). -/
  | seqOutOfTable
  deriving DecidableEq, Repr

/-- Why the model has no next state. -/
inductive Refusal where
  /-- Raised by an arm of `exec` whose instruction has no meaning yet. Safe. -/
  | notModelled (mnemonic : String)
  /-- Raised by the meaning of a panel frame when `SEQ` does not stand at one of that frame's steps:
  the block emits a frame only there (30_encoding.md R86; log 8). Safe: `step` never asks for it. -/
  | frameNotAtStep
  /-- Raised by `step` after a refused request: "the host's run is over" (30_encoding.md R90; log 1). Safe. -/
  | runOver
  deriving DecidableEq, Repr

/-- The block right after construction with the given values (70_reset_and_hazards.md R240, R241). -/
def State.construct (p : Params) (chunk : Word) : State :=
  { params := p, chunk := chunk, black := [], red := [], rot := .deg0, life := .inactive,
    dcOut := .unknown, rstOut := .unknown, seq := .idle, refused := none, requests := [],
    response := none, transcript := [], callAnswers := [], busyAnswers := [], draws := 0 }

/-- Construction with values that violate 00_scope.md R6, R7 or R8 yields no block
(70_reset_and_hazards.md R240). -/
def State.construct? (p : Params) (chunk : Word) : Option State :=
  if p.Legal ∧ p.ChunkLegal chunk then some (State.construct p chunk) else none

/-- Reset is construction, here with the free legal values of Config (70_reset_and_hazards.md R240,
R241; log 5). -/
def State.reset : State := State.construct Config.params Config.chunk

end Sys2Proof.Machine
end

