-- ==== Sys2Proof/Machine/Ops.lean ====
section
/-! DEFINITION. The named operations every meaning is built from: the plane bytes (20_memory.md R51),
the host port (30_encoding.md R70, R90; 43_lifecycle.md R181, R183), the port calls of
42_panel_link.md, and raising an error (60_exceptions.md R211). -/

namespace Sys2Proof.Machine

open Sys2Proof

/-- What a step answers. -/
abbrev Out := Host.Outcome State Fault Refusal

/-! ### Plane bytes -/

/-- What a byte nothing has written reads as: the planes are zero after reset
(70_reset_and_hazards.md R241). -/
def unlistedByte : Byte := 0x00

/-- `MemRead(P, i, 1)` (20_memory.md R51). -/
def Mem.read : Mem → Nat → Byte
  | [], _ => unlistedByte
  | (k, v) :: m, i => if k = i then v else Mem.read m i

/-- `MemWrite(P, i, 1, v)` (20_memory.md R51), keeping the canonical form. -/
def Mem.write : Mem → Nat → Byte → Mem
  | [], i, v => if v = unlistedByte then [] else [(i, v)]
  | (k, w) :: m, i, v =>
    if i < k then (if v = unlistedByte then (k, w) :: m else (i, v) :: (k, w) :: m)
    else if i = k then (if v = unlistedByte then m else (i, v) :: m)
    else (k, w) :: Mem.write m i v

/-- Every address of the list is at least `lo`, the addresses rise strictly, and no listed byte is the
byte an unlisted address reads as. -/
def Mem.wfFrom : Nat → Mem → Bool
  | _, [] => true
  | lo, (k, v) :: m => decide (lo ≤ k) && decide (v ≠ unlistedByte) && Mem.wfFrom (k + 1) m

/-- The canonical form of a plane. -/
def Mem.wf (m : Mem) : Bool := Mem.wfFrom 0 m

/-- Every listed address is below `n`: a plane has the bytes `[0, N)` (20_memory.md R50). -/
def Mem.below : Mem → Nat → Bool
  | [], _ => true
  | (k, _) :: m, n => decide (k < n) && Mem.below m n

/-- A plane by its name. -/
def State.plane (s : State) : Plane → Mem
  | .black => s.black
  | .red => s.red

/-- Byte `i` of plane `p`. -/
def State.readByte (s : State) (p : Plane) (i : Nat) : Byte := Mem.read (s.plane p) i

/-- `PLANE[0..N)`: the whole plane, byte 0 first (00_scope.md R15, 20_memory.md R55). -/
def State.planeBytes (s : State) (p : Plane) : List Byte :=
  (List.range s.params.n).map (s.readByte p)

/-! ### The host port -/

/-- A request is held while an operation runs: not accepted, not refused, not answered
(43_lifecycle.md R181; log 16). -/
def State.whenIdle (s : State) (f : State → State) : State :=
  match s.seq with
  | .idle => f s
  | .run _ _ _ => s

/-- The request at the head of the host port is taken; `rest` is what the host presents after it
(30_encoding.md R70). -/
def State.takeRequest (s : State) (rest : List Request) : State := { s with requests := rest }

/-- `refuse(reason)`: only the mark is set (30_encoding.md R90, 10_state.md R34; log 1). -/
def State.refuse (s : State) (r : RefuseReason) : State := { s with refused := some r }

/-- A colour or framebuffer operation is done in one step: response `OK` with its results, and an
empty transcript (41_framebuffer.md R120, 30_encoding.md R76). -/
def State.complete (s : State) (r0 r1 : Word) : State :=
  { s with response := some { st := .ok, r0 := r0, r1 := r1, err := none }, transcript := [] }

/-- A lifecycle request is accepted: its step table runs from step 0 (43_lifecycle.md R183). -/
def State.accept (s : State) (o : Opr) : State :=
  { s with seq := .run o 0 0, response := none, transcript := [] }

/-! ### Draws of the environment (00_scope.md R10; log 3) -/

/-- The environment's answer to the next `SetDC`, `SetRST` or `BusWrite`. -/
def State.callAnswer (s : State) : CallAnswer :=
  match s.callAnswers with
  | a :: _ => a
  | [] => Config.freeCall s.draws

/-- The state after that answer is drawn. -/
def State.drawCall (s : State) : State :=
  { s with callAnswers := s.callAnswers.tail, draws := s.draws + 1 }

/-- The level the next `ReadBusy` returns. -/
def State.busyAnswer (s : State) : Bool :=
  match s.busyAnswers with
  | v :: _ => v
  | [] => Config.freeBusy s.draws

/-- The state after that level is drawn. -/
def State.drawBusy (s : State) : State :=
  { s with busyAnswers := s.busyAnswers.tail, draws := s.draws + 1 }

/-! ### Transcript, lines and sequencer position -/

/-- Each port call appends one event (42_panel_link.md R150). -/
def State.emit (s : State) (e : Event) : State := { s with transcript := s.transcript ++ [e] }

/-- `DC_OUT <- l` (10_state.md R27). -/
def State.setDc (s : State) (l : Level) : State := { s with dcOut := l }

/-- `RST_OUT <- l` (10_state.md R28). -/
def State.setRst (s : State) (l : Level) : State := { s with rstOut := l }

/-- The level a line is driven to. -/
def Level.ofBool (v : Bool) : Level := if v then .high else .low

/-- `step` advances by one with `off <- 0` (10_state.md R31). -/
def Seq.next : Seq → Seq
  | .idle => .idle
  | .run o k _ => .run o (k + 1) 0

/-- `off <- n` within the same step (10_state.md R31). -/
def Seq.withOff : Seq → Nat → Seq
  | .idle, _ => .idle
  | .run o k _, n => .run o k n

/-- `off` of the running step. -/
def Seq.off : Seq → Nat
  | .idle => 0
  | .run _ _ n => n

/-- The sequencer goes on to the next step of its table (10_state.md R31). -/
def State.advance (s : State) : State := { s with seq := s.seq.next }

/-- The running transfer has sent `n` bytes and stays at its step (10_state.md R31). -/
def State.setOff (s : State) (n : Nat) : State := { s with seq := s.seq.withOff n }

/-! ### Errors and the end of an operation -/

/-- `raise`: the error response ends the operation at once; `LIFE` is not written and nothing is
undone (60_exceptions.md R211, R219; 43_lifecycle.md R184). -/
def State.raise (s : State) (st : Status) (e : CollabError) : State :=
  { s with seq := .idle, response := some { st := st, r0 := 0, r1 := 0, err := some e } }

/-- `END(l)`: `LIFE <- l` unless `keep` (`none`), `SEQ <- IDLE`, response `OK` (43_lifecycle.md R184). -/
def State.finish (s : State) (l : Option Life) : State :=
  { s with
    life := l.getD s.life, seq := .idle,
    response := some { st := .ok, r0 := 0, r1 := 0, err := none } }

/-! ### Port calls (42_panel_link.md R151 to R155) -/

/-- The step `DC(v)`: `SetDC(v)` (42_panel_link.md R152). -/
def State.callDc (s : State) (v : Bool) : State :=
  match s.callAnswer with
  | .ok => ((s.drawCall.emit (.dc v true)).setDc (Level.ofBool v)).advance
  | .err e _ => ((s.drawCall.emit (.dc v false)).setDc .unknown).raise .dcLineError e

/-- The step `RST(v)`: `SetRST(v)` (42_panel_link.md R153). -/
def State.callRst (s : State) (v : Bool) : State :=
  match s.callAnswer with
  | .ok => ((s.drawCall.emit (.rst v true)).setRst (Level.ofBool v)).advance
  | .err e _ => ((s.drawCall.emit (.rst v false)).setRst .unknown).raise .rstLineError e

/-- The step `DELAY(n)`: `DelayMs(n)`, which always completes (42_panel_link.md R154; log 14). -/
def State.callDelay (s : State) (n : Nat) : State := (s.emit (.delay n)).advance

/-- How many bytes the next `BusWrite` of a transfer takes of the `rest` bytes left: all of them when
`CHUNK = 0`, else at most `CHUNK` (42_panel_link.md R156). -/
def chunkLen (chunk : Word) (rest : Nat) : Nat :=
  if chunk = 0 then rest else min chunk.toNat rest

/-- The bytes of the next `BusWrite` of the transfer of `p` (42_panel_link.md R156). -/
def State.nextChunk (s : State) (p : List Byte) : List Byte :=
  (p.drop s.seq.off).take (chunkLen s.chunk (p.length - s.seq.off))

/-- The next chunk was sent: the transfer stays at its step with `off` advanced, or, when it was the
last, goes on to the next step (10_state.md R31). -/
def State.chunkSent (s : State) (p : List Byte) (sent : Nat) : State :=
  if s.seq.off + sent < p.length then s.setOff (s.seq.off + sent) else s.advance

/-- One `BusWrite` of the step `XFER(p)` (42_panel_link.md R151, R156). A failed write has delivered
some first part of its bytes (R151; log 15). The loop's exit with nothing left to send advances the
step (log 17). -/
def State.callXfer (s : State) (p : List Byte) : State :=
  if p.length ≤ s.seq.off then s.advance
  else
    match s.callAnswer with
    | .ok => (s.drawCall.emit (.wr (s.nextChunk p) none)).chunkSent p (s.nextChunk p).length
    | .err e d =>
      (s.drawCall.emit (.wr (s.nextChunk p) (some (min d (s.nextChunk p).length)))).raise .busError e

/-- One read of the step `BUSY`: a level of 1 ends the wait, 0 stays at the step (42_panel_link.md
R155, R160). -/
def State.callBusy (s : State) : State :=
  if s.busyAnswer then (s.drawBusy.emit (.busy true)).advance else s.drawBusy.emit (.busy false)

end Sys2Proof.Machine
end

