-- ==== Sys2Proof/Machine/Operands.lean ====
section
/-! DEFINITION. Operand forms: colour codes (30_encoding.md R73), RGB24 channels (R74), signed
coordinates (R78), logical dimensions (41_framebuffer.md R122), the rotation map (R128), and the
address of a pixel (20_memory.md R52). -/

namespace Sys2Proof.Machine

open Sys2Proof

/-! ### Colours -/

/-- The colour of a code; code 3 is reserved (30_encoding.md R73). -/
def colorOfCode (c : BitVec 2) : Option Color :=
  if c = 0 then some .white else if c = 1 then some .black else if c = 2 then some .red else none

/-- The code of a colour (30_encoding.md R73). -/
def colorCode : Color → BitVec 2
  | .white => 0
  | .black => 1
  | .red => 2

/-- The black-plane bit of a colour (41_framebuffer.md R130). -/
def blackBit : Color → Bool
  | .white => false
  | .black => true
  | .red => false

/-- The red-plane bit of a colour (41_framebuffer.md R130). -/
def redBit : Color → Bool
  | .white => false
  | .black => false
  | .red => true

/-- `rgb[23:16]` (30_encoding.md R74). -/
def rgbRed (v : U24) : Nat := (v.extractLsb' 16 8).toNat

/-- `rgb[15:8]` (30_encoding.md R74). -/
def rgbGreen (v : U24) : Nat := (v.extractLsb' 8 8).toNat

/-- `rgb[7:0]` (30_encoding.md R74). -/
def rgbBlue (v : U24) : Nat := (v.extractLsb' 0 8).toNat

/-! ### Coordinates -/

/-- `s32(v)`: a coordinate operand as a mathematical integer (30_encoding.md R78, 00_scope.md R14). -/
def coord (v : Word) : Int := v.toInt

/-- The logical dimensions under a rotation (41_framebuffer.md R122). -/
def logicalSize (w h : Nat) : Rotation → Nat × Nat
  | .deg0 => (w, h)
  | .deg90 => (h, w)
  | .deg180 => (w, h)
  | .deg270 => (h, w)

/-- The rotation map from logical to physical coordinates, on mathematical integers
(41_framebuffer.md R128, the rows 90_conflicts.md C2 settles on). -/
def phys (w h : Int) (r : Rotation) (x y : Int) : Int × Int :=
  match r with
  | .deg0 => (x, y)
  | .deg90 => (w - 1 - y, x)
  | .deg180 => (w - 1 - x, h - 1 - y)
  | .deg270 => (y, h - 1 - x)

/-- The physical coordinate is on the panel (41_framebuffer.md R131). -/
abbrev OnPanel (w h : Nat) (q : Int × Int) : Prop :=
  0 ≤ q.1 ∧ q.1 < (w : Int) ∧ 0 ≤ q.2 ∧ q.2 < (h : Int)

/-- The byte index of a physical pixel (20_memory.md R52). -/
def byteIndex (w px py : Nat) : Nat := py * (w / 8) + px / 8

/-- The bit mask of a physical column (20_memory.md R52, R53). -/
def bitMask (px : Nat) : Byte := (1 : Byte) <<< (7 - px % 8)

/-- A byte with the bits of the mask set or cleared and the others kept (41_framebuffer.md R129). -/
def putBits (b m : Byte) (v : Bool) : Byte := (b &&& ~~~m) ||| (if v then m else 0x00)

/-- The byte index and bit mask `FB.PIXEL` at a logical coordinate writes, or `none` where the write is
clipped (41_framebuffer.md R129, R131). -/
def State.pixelCell (s : State) (x y : Int) : Option (Nat × Byte) :=
  let q := phys s.params.w s.params.h s.rot x y
  if OnPanel s.params.w s.params.h q then
    some (byteIndex s.params.w q.1.toNat q.2.toNat, bitMask q.1.toNat)
  else none

end Sys2Proof.Machine
end

