-- ==== Sys2Proof/Machine/Colour.lean ====
section
/-! DEFINITION. The colour unit (40_color.md): `CLR.TORGB`, `CLR.FROMRGB`, `CLR.FROMMONO`. -/

namespace Sys2Proof.Machine

open Sys2Proof

/-- `to_rgb`, the fixed table (40_color.md R102). -/
def toRgb : Color → U24
  | .white => 0xFFFFFF
  | .black => 0x000000
  | .red => 0xFF0000

/-- The decision order of every classifier (40_color.md R104 L3): Red when chroma and redness are both
above the red threshold, else White when brightness is above half-scale, else Black. -/
def classifyBy (chroma redness redThreshold brightness halfScale : Int) : Color :=
  if redThreshold < chroma ∧ redThreshold < redness then .red
  else if halfScale < brightness then .white
  else .black

/-- `max(r, g, b) - min(r, g, b)` (40_color.md R105). -/
def stdChroma (v : U24) : Int :=
  (max (max (rgbRed v) (rgbGreen v)) (rgbBlue v) : Int) -
    (min (min (rgbRed v) (rgbGreen v)) (rgbBlue v) : Int)

/-- `r - max(g, b)`, signed (40_color.md R105). -/
def stdRedness (v : U24) : Int := (rgbRed v : Int) - (max (rgbGreen v) (rgbBlue v) : Int)

/-- The default classifier (40_color.md R105). -/
def classifyStd (v : U24) : Color :=
  classifyBy (stdChroma v) (stdRedness v) 127
    (2 * (rgbRed v + rgbGreen v + rgbBlue v) : Int) (3 * 255)

/-- The chroma of a lawful classifier: free, but that law L2 holds at the three values of `to_rgb`
(40_color.md R104; log 6). -/
def lawfulChroma (v : U24) : Int :=
  if v = 0xFF0000 then Config.freeRedThreshold + 1
  else if v = 0xFFFFFF ∨ v = 0x000000 then Config.freeRedThreshold
  else Config.freeChroma v

/-- The redness of a lawful classifier (40_color.md R104; log 6). -/
def lawfulRedness (v : U24) : Int :=
  if v = 0xFF0000 then Config.freeRedThreshold + 1 else Config.freeRedness v

/-- The brightness of a lawful classifier (40_color.md R104; log 6). -/
def lawfulBrightness (v : U24) : Int :=
  if v = 0xFFFFFF then Config.freeHalfScale + 1
  else if v = 0x000000 then Config.freeHalfScale
  else Config.freeBrightness v

/-- A classifier of which only L1 to L3 are known (40_color.md R104; log 6). -/
def classifyLawful (v : U24) : Color :=
  classifyBy (lawfulChroma v) (lawfulRedness v) Config.freeRedThreshold (lawfulBrightness v)
    Config.freeHalfScale

/-- `classify_rgb`, the parameter of 00_scope.md R9. -/
def classifyRgb : Classifier → U24 → Color
  | .standard => classifyStd
  | .lawful => classifyLawful

/-- `from_monochrome` (40_color.md R107). -/
def fromMonochrome : Mono → Color
  | .on => .black
  | .off => .white

/-- A colour's code as a result, zero-extended (30_encoding.md R76). -/
def colorResult (c : Color) : Word := (colorCode c).setWidth 32

/-- `CLR.TORGB` (40_color.md R101). -/
def execClrTorgb (c : BitVec 2) (s : State) : Out :=
  .next (s.whenIdle fun s =>
    match colorOfCode c with
    | some col => s.complete ((toRgb col).setWidth 32) 0
    | none => s.refuse .reservedColor)

/-- `CLR.FROMRGB` (40_color.md R103). -/
def execClrFromrgb (v : U24) (s : State) : Out :=
  .next (s.whenIdle fun s => s.complete (colorResult (classifyRgb s.params.classifier v)) 0)

/-- `CLR.FROMMONO` (40_color.md R106). -/
def execClrFrommono (m : Mono) (s : State) : Out :=
  .next (s.whenIdle fun s => s.complete (colorResult (fromMonochrome m)) 0)

end Sys2Proof.Machine
end

