-- ==== Sys2Proof/Machine/Framebuffer.lean ====
section
/-! DEFINITION. The framebuffer store (41_framebuffer.md): `FB.NEW`, `FB.SETROT`, `FB.GETROT`,
`FB.SIZE`, `FB.PIXEL`, `FB.RDBYTE`. -/

namespace Sys2Proof.Machine

open Sys2Proof

/-- Every byte of both planes zero and `ROT = 0` (41_framebuffer.md R121). -/
def State.newFramebuffer (s : State) : State := { s with black := [], red := [], rot := .deg0 }

/-- `ROT <- r` (41_framebuffer.md R123). -/
def State.setRot (s : State) (r : Rotation) : State := { s with rot := r }

/-- The bits `m` of byte `i` of each plane become the colour's plane bits (41_framebuffer.md R129,
R130). -/
def State.putPixel (s : State) (i : Nat) (m : Byte) (col : Color) : State :=
  { s with
    black := Mem.write s.black i (putBits (Mem.read s.black i) m (blackBit col))
    red := Mem.write s.red i (putBits (Mem.read s.red i) m (redBit col)) }

/-- A pixel write with clipping (41_framebuffer.md R129, R131). -/
def State.writePixel (s : State) (x y : Int) (col : Color) : State :=
  match s.pixelCell x y with
  | some (i, m) => s.putPixel i m col
  | none => s

/-- `FB.NEW` (41_framebuffer.md R121). -/
def execFbNew (s : State) : Out :=
  .next (s.whenIdle fun s => s.newFramebuffer.complete 0 0)

/-- `FB.SETROT` (41_framebuffer.md R123). -/
def execFbSetrot (r : Rotation) (s : State) : Out :=
  .next (s.whenIdle fun s => (s.setRot r).complete 0 0)

/-- `FB.GETROT` (41_framebuffer.md R124). -/
def execFbGetrot (s : State) : Out :=
  .next (s.whenIdle fun s => s.complete (s.rot.code.setWidth 32) 0)

/-- `FB.SIZE` (41_framebuffer.md R125). -/
def execFbSize (s : State) : Out :=
  .next (s.whenIdle fun s =>
    s.complete (BitVec.ofNat 32 (logicalSize s.params.w s.params.h s.rot).1)
      (BitVec.ofNat 32 (logicalSize s.params.w s.params.h s.rot).2))

/-- `FB.PIXEL` (41_framebuffer.md R129). -/
def execFbPixel (x y : Word) (c : BitVec 2) (s : State) : Out :=
  .next (s.whenIdle fun s =>
    match colorOfCode c with
    | some col => (s.writePixel (coord x) (coord y) col).complete 0 0
    | none => s.refuse .reservedColor)

/-- `FB.RDBYTE` (41_framebuffer.md R133). -/
def execFbRdbyte (i : Word) (p : Plane) (s : State) : Out :=
  .next (s.whenIdle fun s =>
    if i.toNat < s.params.n then s.complete ((s.readByte p i.toNat).setWidth 32) 0
    else s.refuse .indexOutOfRange)

end Sys2Proof.Machine
end

