-- ==== Sys2Proof/Machine/Sequencer.lean ====
section
/-! DEFINITION. The protocol sequencer: the entries of a step table and their interpreter
(43_lifecycle.md R184), where each panel frame stands (42_panel_link.md R164 to R172), and the four
step tables (43_lifecycle.md R186, R190, R195, R199). -/

namespace Sys2Proof.Machine

open Sys2Proof

/-- An entry of a step table (43_lifecycle.md R184). -/
inductive Entry where
  /-- `DC(v)` -/
  | dc (v : Bool)
  /-- `RST(v)` -/
  | rst (v : Bool)
  /-- `DELAY(n)` -/
  | delay (n : Nat)
  /-- `XFER(s)` -/
  | xfer (bytes : List Byte)
  /-- `BUSY` -/
  | busy
  /-- `END(l)`; `none` is `keep` -/
  | fin (l : Option Life)
  deriving DecidableEq, Repr

/-- The interpreter of one entry, one port call at a time (43_lifecycle.md R184, 10_state.md R31). -/
def State.runEntry (s : State) : Entry → State
  | .dc v => s.callDc v
  | .rst v => s.callRst v
  | .delay n => s.callDelay n
  | .xfer p => s.callXfer p
  | .busy => s.callBusy
  | .fin l => s.finish l

/-! ### Frames -/

/-- The operation that emits a frame (30_encoding.md R83). -/
def frameEmitter : Frame → Opr
  | .softReset | .inputTemp | .activeTemp | .panelSetting => .init
  | .bufBlack | .bufRed | .powerOn | .refresh => .update
  | .powerOff => .poweroff

/-- The step at which a frame's emission begins (43_lifecycle.md R186, R190, R195). -/
def frameFirst : Frame → Nat
  | .softReset => 7
  | .inputTemp => 12
  | .activeTemp => 16
  | .panelSetting => 20
  | .bufBlack => 0
  | .bufRed => 4
  | .powerOn => 8
  | .refresh => 13
  | .powerOff => 0

/-- A busy-wait follows the frame (42_panel_link.md R162). -/
def frameWaits : Frame → Bool
  | .softReset | .powerOn | .refresh | .powerOff => true
  | .inputTemp | .activeTemp | .panelSetting | .bufBlack | .bufRed => false

/-- The payload of a frame in a state: the planes are read as they stand (43_lifecycle.md R191). -/
def State.payload (s : State) (f : Frame) : List Byte :=
  f.payloadOf (s.planeBytes .black) (s.planeBytes .red)

/-- `SEND(op, p)` as table entries (42_panel_link.md R158). -/
def sendEntries (op : Byte) (p : List Byte) : List Entry :=
  [.dc false, .xfer [op], .dc true, .xfer p]

/-- The entries of a frame: its `SEND`, and the busy-wait after it where it has one. -/
def State.frameEntries (s : State) (f : Frame) : List Entry :=
  sendEntries (f.opcode s.params.opc) (s.payload f) ++ (if frameWaits f then [.busy] else [])

/-! ### Step tables -/

/-- `RESET_PULSE` (42_panel_link.md R163). -/
def resetPulse : List Entry := [.rst true, .delay 1, .rst false, .delay 10, .rst true, .delay 5]

/-- The step table of an operation (43_lifecycle.md R186, R190, R195, R199). -/
def State.table (s : State) : Opr → List Entry
  | .init =>
    [.dc true] ++ resetPulse ++ s.frameEntries .softReset ++ s.frameEntries .inputTemp ++
      s.frameEntries .activeTemp ++ s.frameEntries .panelSetting ++ [.fin (some .active)]
  | .update =>
    s.frameEntries .bufBlack ++ s.frameEntries .bufRed ++ s.frameEntries .powerOn ++
      s.frameEntries .refresh ++ [.fin none]
  | .poweroff =>
    s.frameEntries .powerOff ++ [.dc false, .delay 150, .rst false, .fin (some .inactive)]
  | .hwreset => resetPulse ++ [.fin none]

/-- All nine frames. -/
def allFrames : List Frame :=
  [.softReset, .inputTemp, .activeTemp, .panelSetting, .bufBlack, .bufRed, .powerOn, .refresh,
    .powerOff]

/-- How many steps of its table a frame takes. -/
def frameLen (f : Frame) : Nat := if frameWaits f then 5 else 4

/-- Step `k` of operation `o` belongs to the emission of the frame. -/
def frameCovers (f : Frame) (o : Opr) (k : Nat) : Bool :=
  decide (frameEmitter f = o ∧ frameFirst f ≤ k ∧ k < frameFirst f + frameLen f)

/-- The frame whose emission step `k` of operation `o` belongs to, if any. -/
def frameAt (o : Opr) (k : Nat) : Option Frame := allFrames.find? fun f => frameCovers f o k

/-- The entry of the frame's emission at which `SEQ` stands, if it stands at one. -/
def State.frameEntry? (s : State) (f : Frame) : Option Entry :=
  match s.seq with
  | .idle => none
  | .run o k _ => if frameCovers f o k then (s.frameEntries f)[k - frameFirst f]? else none

/-- The emission of a frame goes on by one port call, at the place `SEQ` gives; a frame is emitted
nowhere but at the steps of its operation's table (30_encoding.md R83, R86; log 8). -/
def State.emitFrame (s : State) (f : Frame) : Out :=
  match s.frameEntry? f with
  | some e => .next (s.runEntry e)
  | none => .refused .frameNotAtStep

end Sys2Proof.Machine
end

