-- ==== Sys2Proof/Machine/Lifecycle.lean ====
section
/-! DEFINITION. Acceptance of the four lifecycle operations (43_lifecycle.md R180 to R183). Once
accepted, an operation runs by the sequencer, one port call a step (log 9). -/

namespace Sys2Proof.Machine

open Sys2Proof

/-- The request is legal in the given `LIFE` (43_lifecycle.md R180). -/
def Opr.legalIn : Opr → Life → Bool
  | .init, .inactive => true
  | .init, .active => false
  | .update, .inactive => false
  | .update, .active => true
  | .poweroff, .inactive => false
  | .poweroff, .active => true
  | .hwreset, .inactive => true
  | .hwreset, .active => true

/-- Acceptance: refused when not legal in `LIFE`, else the step table runs from step 0
(43_lifecycle.md R182, R183). -/
def State.request (s : State) (o : Opr) : State :=
  s.whenIdle fun s => if o.legalIn s.life then s.accept o else s.refuse .illegalInLife

/-- `EPD.INIT` (43_lifecycle.md R185). -/
def execEpdInit (s : State) : Out := .next (s.request .init)

/-- `EPD.UPDATE` (43_lifecycle.md R189). -/
def execEpdUpdate (s : State) : Out := .next (s.request .update)

/-- `EPD.POWEROFF` (43_lifecycle.md R194). -/
def execEpdPoweroff (s : State) : Out := .next (s.request .poweroff)

/-- `EPD.HWRESET` (43_lifecycle.md R198). -/
def execEpdHwreset (s : State) : Out := .next (s.request .hwreset)

end Sys2Proof.Machine
end

