-- ==== Sys2Proof/Machine/PanelLink.lean ====
section
/-! DEFINITION. The nine panel frames (30_encoding.md R83; 42_panel_link.md R164 to R172). Each meaning
carries the frame's emission on by one port call (log 8). -/

namespace Sys2Proof.Machine

open Sys2Proof

/-- SOFT_RESET (42_panel_link.md R164): `SEND(0x00, [0x0E])`, then `BUSYWAIT`. -/
def execSoftReset (s : State) : Out := s.emitFrame .softReset

/-- INPUT_TEMP (42_panel_link.md R165): `SEND(0xE5, [0x19])`. -/
def execInputTemp (s : State) : Out := s.emitFrame .inputTemp

/-- ACTIVE_TEMP (42_panel_link.md R166): `SEND(0xE0, [0x02])`. -/
def execActiveTemp (s : State) : Out := s.emitFrame .activeTemp

/-- PANEL_SETTING (42_panel_link.md R167): `SEND(0x00, [0xCF, 0x8D])`. -/
def execPanelSetting (s : State) : Out := s.emitFrame .panelSetting

/-- BUF_BLACK (42_panel_link.md R168): `SEND(OPC(BUF_BLACK), BLACK[0..N))`. -/
def execBufBlack (s : State) : Out := s.emitFrame .bufBlack

/-- BUF_RED (42_panel_link.md R169): `SEND(OPC(BUF_RED), RED[0..N))`. -/
def execBufRed (s : State) : Out := s.emitFrame .bufRed

/-- POWER_ON (42_panel_link.md R170): `SEND(OPC(POWER_ON), [0x00])`, then `BUSYWAIT`. -/
def execPowerOn (s : State) : Out := s.emitFrame .powerOn

/-- REFRESH (42_panel_link.md R171): `SEND(OPC(REFRESH), [0x00])`, then `BUSYWAIT`. -/
def execRefresh (s : State) : Out := s.emitFrame .refresh

/-- POWER_OFF (42_panel_link.md R172): `SEND(OPC(POWER_OFF), [0x00])`, then `BUSYWAIT`. -/
def execPowerOff (s : State) : Out := s.emitFrame .powerOff

end Sys2Proof.Machine
end

