-- ==== Sys2Proof/Machine/Dispatch.lean ====
section
/-! DEFINITION. The one dispatch: each instruction of spec/opcode_table.json to its meaning. -/

namespace Sys2Proof.Machine

open Sys2Proof

def exec (i : Instr) (s : State) : Host.Outcome State Fault Refusal :=
  match i with
  | .epdInit => Sys2Proof.Machine.execEpdInit s
  | .epdUpdate => Sys2Proof.Machine.execEpdUpdate s
  | .epdPoweroff => Sys2Proof.Machine.execEpdPoweroff s
  | .epdHwreset => Sys2Proof.Machine.execEpdHwreset s
  | .fbNew => Sys2Proof.Machine.execFbNew s
  | .fbSetrot r => Sys2Proof.Machine.execFbSetrot r s
  | .fbGetrot => Sys2Proof.Machine.execFbGetrot s
  | .fbSize => Sys2Proof.Machine.execFbSize s
  | .fbPixel x y c => Sys2Proof.Machine.execFbPixel x y c s
  | .fbRdbyte k p => Sys2Proof.Machine.execFbRdbyte k p s
  | .clrTorgb c => Sys2Proof.Machine.execClrTorgb c s
  | .clrFromrgb v => Sys2Proof.Machine.execClrFromrgb v s
  | .clrFrommono m => Sys2Proof.Machine.execClrFrommono m s
  | .softReset => Sys2Proof.Machine.execSoftReset s
  | .inputTemp => Sys2Proof.Machine.execInputTemp s
  | .activeTemp => Sys2Proof.Machine.execActiveTemp s
  | .panelSetting => Sys2Proof.Machine.execPanelSetting s
  | .bufBlack => Sys2Proof.Machine.execBufBlack s
  | .bufRed => Sys2Proof.Machine.execBufRed s
  | .powerOn => Sys2Proof.Machine.execPowerOn s
  | .refresh => Sys2Proof.Machine.execRefresh s
  | .powerOff => Sys2Proof.Machine.execPowerOff s

end Sys2Proof.Machine
end

