-- ==== Sys2Proof/Machine/Fetch.lean ====
section
/-! DEFINITION. What the next step does: take the next request of the host port when the block is idle
(30_encoding.md R70), or go on at the sequencer's place (10_state.md R30, R31); and placing an
instruction of spec/opcode_table.json where the next step runs it (log 13). -/

namespace Sys2Proof.Machine

open Sys2Proof

/-- What the next step does. -/
inductive Fetched where
  /-- A request was refused: "the host's run is over" (30_encoding.md R90). -/
  | over
  /-- The block is idle and the host presents no request. -/
  | waiting
  /-- A request that spells no operation is refused (30_encoding.md R72, R87). -/
  | reject (r : RefuseReason) (t : State)
  /-- An instruction, and the state in which it is executed. -/
  | instr (i : Instr) (t : State)
  /-- An entry of the running step table that belongs to no frame. -/
  | entry (e : Entry)
  /-- `SEQ` names a step beyond its table. -/
  | beyond
  deriving DecidableEq, Repr

/-- The request at the head of the host port is taken and decoded (30_encoding.md R70, R77). -/
def State.fetchRequest (s : State) : Fetched :=
  match s.requests with
  | [] => .waiting
  | r :: rest =>
    match decodeRequest r with
    | .ok i => .instr i (s.takeRequest rest)
    | .error why => .reject why (s.takeRequest rest)

/-- The entry at the sequencer's place: a frame's steps are that frame's instruction, the others run
as they stand (43_lifecycle.md R184). -/
def State.fetchStep (s : State) (o : Opr) (k : Nat) : Fetched :=
  match frameAt o k with
  | some f => .instr f.instr s
  | none =>
    match (s.table o)[k]? with
    | some e => .entry e
    | none => .beyond

/-- What the next step does: while an operation runs no request is taken (43_lifecycle.md R181). -/
def State.fetch (s : State) : Fetched :=
  match s.refused with
  | some _ => .over
  | none =>
    match s.seq with
    | .idle => s.fetchRequest
    | .run o k _ => s.fetchStep o k

/-- The `LIFE` in which an operation that emits frames runs (43_lifecycle.md R180). -/
def Opr.lifeWhile : Opr → Life
  | .init => .inactive
  | .update => .active
  | .poweroff => .active
  | .hwreset => .inactive

/-- `s` with the table word's instruction where the next step runs it: a host request at the head of
the port of an idle block, a frame at the first step of its emission (log 13). -/
def State.placeTableWord (s : State) (nbits w : Nat) : State :=
  if nbits = 96 then
    { s with
      refused := none, seq := .idle,
      requests := Request.ofBits (BitVec.ofNat 96 w) :: s.requests }
  else
    match (decodeTableWord nbits w).bind Instr.frame? with
    | some f =>
      { s with
        refused := none, seq := .run (frameEmitter f) (frameFirst f) 0,
        life := (frameEmitter f).lifeWhile }
    | none => s

end Sys2Proof.Machine
end

