-- ==== Sys2Proof/Machine/Step.lean ====
section
/-! DEFINITION. One step of the block: a request taken from an idle host port, or one port call of the
running operation (00_scope.md R12, 10_state.md R31). -/

namespace Sys2Proof.Machine

open Sys2Proof

/-- One step. An idle block with no request waits and changes nothing (log 2); a refused request sets
the mark, after which there is no step (30_encoding.md R90; log 1). -/
def step (s : State) : Host.Outcome State Fault Refusal :=
  match s.fetch with
  | .over => .refused .runOver
  | .waiting => .next s
  | .reject r t => .next (t.refuse r)
  | .instr i t => exec i t
  | .entry e => .next (s.runEntry e)
  | .beyond => .fault .seqOutOfTable

/-- `s` with the instruction of a table word stored where `step` fetches its next instruction. -/
def State.withFetchWord (s : State) (nbits w : Nat) : State := s.placeTableWord nbits w

end Sys2Proof.Machine
end

