-- ==== Sys2Proof/Machine/Flags.lean ====
section
/-! DEFINITION. The block has no condition codes and no status flags (10_state.md R32); what a request
reports is the status code of its response (30_encoding.md R81). -/

namespace Sys2Proof.Machine

open Sys2Proof

/-- The status code `ST` (30_encoding.md R81); codes 0x04 to 0xFF are never returned. -/
def Status.code : Status → Byte
  | .ok => 0x00
  | .busError => 0x01
  | .dcLineError => 0x02
  | .rstLineError => 0x03

end Sys2Proof.Machine
end

