-- ==== Sys2Proof/Safety.lean ====
section
/-! DEFINITION. The terms claims are stated in: what a good state is, what spec/opcode_table.json's
masks ask of a request, and the events an operation with no failing call leaves. -/

namespace Sys2Proof

open Sys2Proof.Machine

/-! ### Good states -/

/-- Both planes are canonical and have no byte outside `[0, N)` (20_memory.md R50). -/
def MemOk (s : State) : Prop :=
  Mem.wf s.black = true ∧ Mem.wf s.red = true ∧
    Mem.below s.black s.params.n = true ∧ Mem.below s.red s.params.n = true

/-- Plane exclusivity (10_state.md R35). -/
def PlanesExclusive (s : State) : Prop :=
  ∀ i, s.readByte .black i &&& s.readByte .red i = 0x00

/-- A running operation is legal in `LIFE` and stands inside its table; `off` counts sent bytes of a
transfer that is not over, and is 0 at any other step (10_state.md R30, R31; 43_lifecycle.md R180). -/
def SeqOk (s : State) : Prop :=
  ∀ o k off, s.seq = .run o k off →
    o.legalIn s.life = true ∧
      ∃ e, (s.table o)[k]? = some e ∧
        match e with
        | .xfer p => off < p.length
        | .dc _ | .rst _ | .delay _ | .busy | .fin _ => off = 0

/-- The value the last `DC` entry of a list drives, if it has one. -/
def lastDc : List Entry → Option Bool
  | [] => none
  | .dc v :: es => some ((lastDc es).getD v)
  | .rst _ :: es | .delay _ :: es | .xfer _ :: es | .busy :: es | .fin _ :: es => lastDc es

/-- The value the last `RST` entry of a list drives, if it has one. -/
def lastRst : List Entry → Option Bool
  | [] => none
  | .rst v :: es => some ((lastRst es).getD v)
  | .dc _ :: es | .delay _ :: es | .xfer _ :: es | .busy :: es | .fin _ :: es => lastRst es

/-- While an operation runs, each line has the level the last completed step for it drove it to
(10_state.md R27, R28; 70_reset_and_hazards.md R252). -/
def LinesOk (s : State) : Prop :=
  ∀ o k off, s.seq = .run o k off →
    (∀ v, lastDc ((s.table o).take k) = some v → s.dcOut = Level.ofBool v) ∧
      (∀ v, lastRst ((s.table o).take k) = some v → s.rstOut = Level.ofBool v)

/-- The port: no response while an operation runs; an error response carries an error value and no
result, and `OK` carries no error value (30_encoding.md R70, R76). -/
def PortOk (s : State) : Prop :=
  (∀ o k off, s.seq = .run o k off → s.response = none) ∧
    ∀ r, s.response = some r →
      (r.st = .ok ↔ r.err = none) ∧ (r.st ≠ .ok → r.r0 = 0 ∧ r.r1 = 0)

/-- The invariant of the machine. -/
structure Inv (s : State) : Prop where
  legal      : s.params.Legal
  chunkLegal : s.params.ChunkLegal s.chunk
  memOk      : MemOk s
  exclusive  : PlanesExclusive s
  seqOk      : SeqOk s
  linesOk    : LinesOk s
  portOk     : PortOk s
  /-- A refusal leaves the block idle (30_encoding.md R90). -/
  refusedIdle : s.refused ≠ none → s.seq = .idle

/-- A block just constructed, with what the host will ask and the environment will answer. -/
def started (p : Params) (chunk : Word) (requests : List Request) (calls : List CallAnswer)
    (levels : List Bool) : State :=
  { State.construct p chunk with
    requests := requests, callAnswers := calls, busyAnswers := levels }

/-- `n` steps, stopping at the first fault or refusal. -/
def runSteps : Nat → State → Out
  | 0, s => .next s
  | n + 1, s =>
    match step s with
    | .next t => runSteps n t
    | .fault r => .fault r
    | .refused r => .refused r

/-! ### The rows of spec/opcode_table.json -/

/-- `OP` and mask of each host request's row of spec/opcode_table.json. -/
def requestRows : List (Byte × BitVec 96) :=
  [(0x01, 0xFFFFFFFFFFFFFFFFFFFFFFFF), (0x02, 0xFFFFFFFFFFFFFFFFFFFFFFFF),
   (0x03, 0xFFFFFFFFFFFFFFFFFFFFFFFF), (0x04, 0xFFFFFFFFFFFFFFFFFFFFFFFF),
   (0x10, 0xFFFFFFFFFFFFFFFFFFFFFFFF), (0x11, 0xFFFFFFFFFFFFFFFFFFFFFFFC),
   (0x12, 0xFFFFFFFFFFFFFFFFFFFFFFFF), (0x13, 0xFFFFFFFFFFFFFFFFFFFFFFFF)] ++
  [(0x14, 0xFF0000000000000000FFFFFC), (0x15, 0xFF00000000FFFFFFFFFFFFFE),
   (0x20, 0xFFFFFFFFFFFFFFFFFFFFFFFC), (0x21, 0xFFFFFFFFFFFFFFFFFF000000),
   (0x22, 0xFFFFFFFFFFFFFFFFFFFFFFFE)]

/-- The request matches a row: under the row's mask it is the row's `OP` with zeros behind it. -/
def Request.MatchesRow (r : Request) (row : Byte × BitVec 96) : Prop :=
  r.toBits &&& row.2 = row.1 ++ (0 : BitVec 88)

/-! ### Events of an operation no call of which fails -/

/-- The response of an operation that completed (30_encoding.md R76, R81). -/
def okResponse (r0 r1 : Word) : Option Response :=
  some { st := .ok, r0 := r0, r1 := r1, err := none }

/-- The chunks of a transfer, at most `fuel` of them (42_panel_link.md R156). -/
def chunksFuel (chunk : Word) : Nat → List Byte → List (List Byte)
  | 0, _ => []
  | _ + 1, [] => []
  | fuel + 1, b :: bs =>
    (b :: bs).take (chunkLen chunk (b :: bs).length) ::
      chunksFuel chunk fuel ((b :: bs).drop (chunkLen chunk (b :: bs).length))

/-- The chunks of a transfer (42_panel_link.md R156). -/
def chunksOf (chunk : Word) (p : List Byte) : List (List Byte) := chunksFuel chunk p.length p

/-- The write events of a transfer. -/
def xferEvents (chunk : Word) (p : List Byte) : List Event :=
  (chunksOf chunk p).map fun c => .wr c none

/-- The events of `SEND(op, p)` (42_panel_link.md R158). -/
def sendEvents (chunk : Word) (op : Byte) (p : List Byte) : List Event :=
  [.dc false true, .wr [op] none, .dc true true] ++ xferEvents chunk p

/-- `BUSYWAIT` after `zeros` reads of 0 (30_encoding.md R92). -/
def busyEvents (zeros : Nat) : List Event := List.replicate zeros (.busy false) ++ [.busy true]

/-- The events of the reset pulse (42_panel_link.md R163). -/
def pulseEvents : List Event :=
  [.rst true true, .delay 1, .rst false true, .delay 10, .rst true true, .delay 5]

/-- How many calls `SEND(op, p)` makes. -/
def sendCalls (chunk : Word) (p : List Byte) : Nat := 3 + (chunksOf chunk p).length

/-- The answers of a busy-wait that reads `zeros` times 0 and then 1. -/
def busyLevels (zeros : Nat) : List Bool := List.replicate zeros false ++ [true]

end Sys2Proof
end

