-- ==== Sys2Proof/Certificates/Slice0/Obligations.lean ====
section
/-! DEFINITION. The statements for the provers, from the numbered rules of spec/. -/

open Sys2Proof Sys2Proof.Machine

/-! ### Decoding and the step -/

/-- The decoder reads the words of 95_test_vectors.md (V12, V24, V25, section 2.1, P2) as the requests
they are written for, and an opcode byte of spec/opcode_table.json as its frame (a bare opcode byte is
log 7). -/
def Obligations.SampleWordsDecode : Prop :=
  decodeTableWord 96 0x010000000000000000000000 = some .epdInit ∧
  decodeTableWord 96 0x140000000F00000001000002 = some (.fbPixel 15 1 2) ∧
  decodeTableWord 96 0x150000000300000000000001 = some (.fbRdbyte 3 .red) ∧
  decodeTableWord 96 0x110000000000000000000002 = some (.fbSetrot .deg180) ∧
  decodeTableWord 96 0x210000000000000000FF7F7F = some (.clrFromrgb 0xFF7F7F) ∧
  decodeTableWord 96 0x220000000000000000000001 = some (.clrFrommono .on) ∧
  decodeTableWord 96 0x150000000000000001000000 = none ∧
  decodeTableWord 96 0x160000000000000000000000 = none ∧
  decodeTableWord 8 0xE5 = some .inputTemp ∧
  decodeTableWord 24 0x8DCF00 = some .panelSetting

/-- Every instruction is read back from its encoding, every operand at every value; `OPC` is any legal
assignment and the planes have at least one byte (30_encoding.md R71, R77, R83). A request is read
back from its 96-bit string and a string from its request, with `OP` in bits 95:88, `A` in 87:56, `B`
in 55:24 and `C` in 23:0 (R89). -/
def Obligations.DecodeOfEncodeIsIdentity : Prop :=
  (∀ (opc : OpcMap) (black red : List Byte) (i : Instr),
    opc.Legal → black ≠ [] → red ≠ [] → decode opc (encode opc black red i) = some i) ∧
  (∀ r : Request, Request.ofBits r.toBits = r ∧
    r.toBits.toNat =
      r.op.toNat * 2 ^ 88 + r.a.toNat * 2 ^ 56 + r.b.toNat * 2 ^ 24 + r.c.toNat) ∧
  (∀ v : BitVec 96, (Request.ofBits v).toBits = v)

/-- Whatever decodes is the encoding of what it decodes to: no bit of a request is ignored (R72), and
no bytes but those of the nine frames are a frame (R83, R86). -/
def Obligations.EncodeOfDecodeIsIdentity : Prop :=
  ∀ (opc : OpcMap) (enc : Encoded) (i : Instr), decode opc enc = some i →
    ∃ black red : List Byte, black ≠ [] ∧ red ≠ [] ∧ encode opc black red i = enc

/-- The decoder accepts exactly the requests that match a row of spec/opcode_table.json under the row's
mask, calls a request with another `OP` unassigned (R87) and any other a reserved operand (R72). -/
def Obligations.DecoderFollowsOpcodeTable : Prop :=
  ∀ r : Request,
    ((∃ i, decodeRequest r = .ok i) ↔ ∃ row ∈ requestRows, r.MatchesRow row) ∧
    (decodeRequest r = .error .unassignedOp ↔ ∀ row ∈ requestRows, r.op ≠ row.1) ∧
    (decodeRequest r = .error .reservedOperand ↔
      ∃ row ∈ requestRows, r.op = row.1 ∧ ¬ r.MatchesRow row)

/-- An idle block takes the request at the head of the host port and executes the instruction it
spells (R70, R77; the port as a list is log 2). -/
def Obligations.IdleStepRunsDecodedRequest : Prop :=
  ∀ (s : State) (r : Request) (rest : List Request) (i : Instr),
    s.refused = none → s.seq = .idle → s.requests = r :: rest → decodeRequest r = .ok i →
    step s = exec i { s with requests := rest }

/-- A request that spells no operation is taken and refused: only the mark is set (R90; the mark's reason
is log 1). -/
def Obligations.IdleStepRefusesUndecodable : Prop :=
  ∀ (s : State) (r : Request) (rest : List Request) (why : RefuseReason),
    s.refused = none → s.seq = .idle → s.requests = r :: rest → decodeRequest r = .error why →
    step s = .next { s with requests := rest, refused := some why }

/-- Where `SEQ` stands at a step of a panel frame, a step of the block is the execution of that frame's
instruction (R83, R184; the model's reading of a frame as an instruction is log 8). -/
def Obligations.RunningStepRunsFrame : Prop :=
  ∀ (s : State) (o : Opr) (k off : Nat) (f : Frame),
    s.refused = none → s.seq = .run o k off → frameAt o k = some f → step s = exec f.instr s

/-- A running block interprets the entry of the running table at `SEQ.step`, frames included
(R31, R184). -/
def Obligations.RunningStepInterpretsTable : Prop :=
  ∀ (s : State) (o : Opr) (k off : Nat) (e : Entry),
    s.refused = none → s.seq = .run o k off → (s.table o)[k]? = some e →
    step s = .next (s.runEntry e)

/-- The step tables are those of R186, R190, R195 and R199, entry by entry. -/
def Obligations.StepTablesAreTheSpecs : Prop :=
  ∀ s : State,
    s.table .init =
      [.dc true, .rst true, .delay 1, .rst false, .delay 10, .rst true, .delay 5,
       .dc false, .xfer [0x00], .dc true, .xfer [0x0E], .busy,
       .dc false, .xfer [0xE5], .dc true, .xfer [0x19],
       .dc false, .xfer [0xE0], .dc true, .xfer [0x02],
       .dc false, .xfer [0x00], .dc true, .xfer [0xCF, 0x8D], .fin (some .active)] ∧
    s.table .update =
      [.dc false, .xfer [s.params.opc.bufBlack], .dc true, .xfer (s.planeBytes .black),
       .dc false, .xfer [s.params.opc.bufRed], .dc true, .xfer (s.planeBytes .red),
       .dc false, .xfer [s.params.opc.powerOn], .dc true, .xfer [0x00], .busy,
       .dc false, .xfer [s.params.opc.refresh], .dc true, .xfer [0x00], .busy, .fin none] ∧
    s.table .poweroff =
      [.dc false, .xfer [s.params.opc.powerOff], .dc true, .xfer [0x00], .busy,
       .dc false, .delay 150, .rst false, .fin (some .inactive)] ∧
    s.table .hwreset =
      [.rst true, .delay 1, .rst false, .delay 10, .rst true, .delay 5, .fin none]

/-- After a refused request the run is over (R90); an idle block with no request waits (log 2, the
model's choice). -/
def Obligations.MarkedOrUnaskedStep : Prop :=
  ∀ s : State,
    (s.refused ≠ none → step s = .refused .runOver) ∧
    (s.refused = none → s.seq = .idle → s.requests = [] → step s = .next s)

/-! ### Reset -/

/-- The state construction leaves, for every configuration (R240, R241). The model's choices are that
`State.reset` is construction with free legal values (log 5) and the empty transcript held in the
state (log 10). -/
def Obligations.ResetLeavesSpecValues : Prop :=
  (∃ p c, p.Legal ∧ p.ChunkLegal c ∧ State.reset = State.construct p c) ∧
  ∀ (p : Params) (c : Word),
    let s := State.construct p c
    (∀ i, s.readByte .black i = 0x00) ∧ (∀ i, s.readByte .red i = 0x00) ∧ s.rot = .deg0 ∧
      s.life = .inactive ∧ s.chunk = c ∧ s.dcOut = .unknown ∧ s.rstOut = .unknown ∧
      s.seq = .idle ∧ s.refused = none ∧ s.params = p ∧ s.transcript = []

/-- Construction yields a block exactly for a geometry within the bounds of R6, a transfer limit and a
chunk size within R7 and an `OPC` that is a bijection onto the five opcodes of R8 (R6, R7, R8,
R240). -/
def Obligations.ConstructionRejectsIllegal : Prop :=
  ∀ (p : Params) (c : Word) (s : State),
    State.construct? p c = some s ↔
      (p.w % 8 = 0 ∧ 8 ≤ p.w ∧ p.w ≤ 2147483647) ∧ (1 ≤ p.h ∧ p.h ≤ 2147483647) ∧
      p.h * (p.w / 8) ≤ 4294967295 ∧
      (∀ m, p.maxXfer = some m → 0 < m) ∧
      (c.toNat = 0 ∨ ∀ m, p.maxXfer = some m → c.toNat ≤ m) ∧
      [p.opc.bufBlack, p.opc.bufRed, p.opc.powerOn, p.opc.refresh, p.opc.powerOff].Perm
        [0x02, 0x04, 0x10, 0x12, 0x13] ∧
      s = State.construct p c

/-- The invariant holds at reset, and in every block just constructed with legal values. -/
def Obligations.ResetMeetsInvariant : Prop :=
  Inv State.reset ∧
  ∀ (p : Params) (c : Word) (rs : List Request) (calls : List CallAnswer) (levels : List Bool),
    p.Legal → p.ChunkLegal c → Inv (started p c rs calls levels)

/-! ### Invariants -/

/-- Every step keeps the invariant: legal parameters, canonical planes inside `[0, N)`, plane
exclusivity, a sequencer inside its table and legal in `LIFE`, lines as last driven, a well-formed
response. -/
def Obligations.StepKeepsInvariant : Prop :=
  ∀ s t : State, Inv s → step s = .next t → Inv t

/-- A block that meets the invariant and has refused nothing always has a next state: no fault and no
refusal stops it. -/
def Obligations.BlockNeverStops : Prop :=
  ∀ s : State, Inv s → s.refused = none → ∃ t, step s = .next t

/-- Plane exclusivity in every state reachable from construction, whatever the host asks and the
environment answers (R35, which the spec marks as derived from R121 and R129). -/
def Obligations.ReachablePlanesExclusive : Prop :=
  ∀ (p : Params) (c : Word) (rs : List Request) (calls : List CallAnswer) (levels : List Bool)
    (n : Nat) (t : State),
    p.Legal → p.ChunkLegal c → runSteps n (started p c rs calls levels) = .next t →
    ∀ i, i < t.params.n → t.readByte .black i &&& t.readByte .red i = 0x00

/-- `LIFE` changes only at the `END` step of `EPD.INIT` (to Active) or of `EPD.POWEROFF` (to Inactive),
so every other operation leaves it unchanged (R36, which the spec marks as derived from R25). -/
def Obligations.LifeChangesOnlyAtEnd : Prop :=
  ∀ s t : State, step s = .next t → t.life ≠ s.life →
    ((∃ off, s.seq = .run .init 24 off) ∧ s.life = .inactive ∧ t.life = .active ∧ t.seq = .idle) ∨
    ((∃ off, s.seq = .run .poweroff 8 off) ∧ s.life = .active ∧ t.life = .inactive ∧ t.seq = .idle)

/-- The construction values never change (R26, R240). -/
def Obligations.ConstructionValuesNeverChange : Prop :=
  ∀ s t : State, step s = .next t → t.params = s.params ∧ t.chunk = s.chunk

/-- A running operation leaves the planes, `ROT`, the host port and the mark as they are, so no request
takes effect while it runs (R181, R202). -/
def Obligations.RunningStepKeepsStore : Prop :=
  ∀ (s t : State) (o : Opr) (k off : Nat), s.seq = .run o k off → step s = .next t →
    (∀ p i, t.readByte p i = s.readByte p i) ∧ t.black = s.black ∧ t.red = s.red ∧
      t.rot = s.rot ∧ t.requests = s.requests ∧ t.refused = s.refused

/-- The planes change only by `FB.NEW` and `FB.PIXEL`, and `ROT` only by `FB.NEW` and `FB.SETROT`
(R22, R23, R24). -/
def Obligations.OnlyFbRequestsWriteStore : Prop :=
  ∀ s t : State, step s = .next t →
    ((t.black ≠ s.black ∨ t.red ≠ s.red) →
      s.seq = .idle ∧ ∃ r rest, s.requests = r :: rest ∧
        (decodeRequest r = .ok .fbNew ∨ ∃ x y c, decodeRequest r = .ok (.fbPixel x y c))) ∧
    (t.rot ≠ s.rot →
      s.seq = .idle ∧ ∃ r rest, s.requests = r :: rest ∧
        (decodeRequest r = .ok .fbNew ∨ ∃ q, decodeRequest r = .ok (.fbSetrot q)))

/-- `DC_OUT` changes only at a `DC` entry and `RST_OUT` only at an `RST` entry of the running table
(R27, R28). -/
def Obligations.LinesChangeOnlyAtTheirEntries : Prop :=
  ∀ s t : State, step s = .next t →
    (t.dcOut ≠ s.dcOut →
      ∃ o k off v, s.seq = .run o k off ∧ (s.table o)[k]? = some (.dc v)) ∧
    (t.rstOut ≠ s.rstOut →
      ∃ o k off v, s.seq = .run o k off ∧ (s.table o)[k]? = some (.rst v))

/-- A running step ends the operation, stays at its step with `off` no smaller, or goes to the next
step with `off = 0`: the sequencer never moves backward (R31). -/
def Obligations.SequencerNeverMovesBackward : Prop :=
  ∀ (s t : State) (o : Opr) (k off : Nat), s.seq = .run o k off → step s = .next t →
    t.seq = .idle ∨ (∃ off', t.seq = .run o k off' ∧ off ≤ off') ∨ t.seq = .run o (k + 1) 0

/-- Every running step that is not at an `END` entry appends exactly one event to the transcript, and a
step at an `END` entry appends none (R17, R150). -/
def Obligations.OneEventPerPortCall : Prop :=
  ∀ (s t : State) (o : Opr) (k off : Nat), SeqOk s → s.seq = .run o k off → step s = .next t →
    ((∀ l, (s.table o)[k]? ≠ some (.fin l)) → ∃ ev, t.transcript = s.transcript ++ [ev]) ∧
    (∀ l, (s.table o)[k]? = some (.fin l) → t.transcript = s.transcript)

/-- Every write on the bus is the one opcode byte of a frame, with DC low, or a piece of that frame's
payload, with DC high (R82, R86, R252). -/
def Obligations.WritesAreFramedByDc : Prop :=
  ∀ (s t : State) (bytes : List Byte) (failed : Option Nat),
    Inv s → step s = .next t → t.transcript = s.transcript ++ [.wr bytes failed] →
    ∃ o k off f, s.seq = .run o k off ∧ frameAt o k = some f ∧
      ((k = frameFirst f + 1 ∧ bytes = [f.opcode s.params.opc] ∧
          s.dcOut = .low ∧ t.dcOut = .low) ∨
       (k = frameFirst f + 3 ∧ bytes <:+: s.payload f ∧ bytes ≠ [] ∧
          s.dcOut = .high ∧ t.dcOut = .high))

/-! ### Colour unit -/

/-- `CLR.TORGB` of an idle block answers the fixed table's value and changes nothing else (R101, R102;
the response and transcript held in the state are the model's choice, log 10). -/
def Obligations.ClrTorgbAnswersTable : Prop :=
  ∀ s : State, s.seq = .idle →
    exec (.clrTorgb 0) s =
      .next { s with response := okResponse 0x00FFFFFF 0, transcript := [] } ∧
    exec (.clrTorgb 1) s =
      .next { s with response := okResponse 0x00000000 0, transcript := [] } ∧
    exec (.clrTorgb 2) s =
      .next { s with response := okResponse 0x00FF0000 0, transcript := [] }

/-- `CLR.FROMRGB` of an idle block under the default classifier: Red, else White, else Black by the
formulas of R105 (R103, R105). -/
def Obligations.ClrFromrgbClassifies : Prop :=
  ∀ (s : State) (v : U24), s.seq = .idle → s.params.classifier = .standard →
    let r : Int := (v.toNat / 65536 % 256 : Nat)
    let g : Int := (v.toNat / 256 % 256 : Nat)
    let b : Int := (v.toNat % 256 : Nat)
    let code : Word :=
      if max r (max g b) - min r (min g b) > 127 ∧ r - max g b > 127 then 2
      else if 2 * (r + g + b) > 3 * 255 then 0 else 1
    exec (.clrFromrgb v) s = .next { s with response := okResponse code 0, transcript := [] }

/-- Under every classifier `CLR.FROMRGB` completes with a code that is a function of the 24-bit value
alone (R104 L1), one of the three colours, the right one at the three values of `to_rgb` (L2), and
changes nothing else (R103); a classifier only known to be lawful decides in the order of L3 by its
free measures (which measures is a free value, log 6; the response held in the state is log 10). -/
def Obligations.ClrFromrgbAnswersColour : Prop :=
  ∀ k : Classifier, ∃ code : U24 → Word,
    (∀ (s : State) (v : U24), s.seq = .idle → s.params.classifier = k →
      exec (.clrFromrgb v) s =
        .next { s with response := okResponse (code v) 0, transcript := [] }) ∧
    (∀ v, code v = 0 ∨ code v = 1 ∨ code v = 2) ∧
    code 0xFFFFFF = 0 ∧ code 0x000000 = 1 ∧ code 0xFF0000 = 2 ∧
    (k = .lawful → ∀ v,
      (code v = 2 ↔ Config.freeRedThreshold < lawfulChroma v ∧
        Config.freeRedThreshold < lawfulRedness v) ∧
      (code v = 0 ↔ code v ≠ 2 ∧ Config.freeHalfScale < lawfulBrightness v))

/-- `CLR.FROMMONO` of an idle block: On is Black, Off is White, and nothing else changes (R106, R107). -/
def Obligations.ClrFrommonoAnswersColour : Prop :=
  ∀ s : State, s.seq = .idle →
    exec (.clrFrommono .on) s = .next { s with response := okResponse 1 0, transcript := [] } ∧
    exec (.clrFrommono .off) s = .next { s with response := okResponse 0 0, transcript := [] }

/-- `CLR.TORGB` then `CLR.FROMRGB` of its result returns the colour code, under every classifier; the
reverse does not hold under the default one (R109, which the spec marks as derived from R102, R104
and R105). -/
def Obligations.ColourRoundTrip : Prop :=
  (∀ (s : State) (c : BitVec 2), s.seq = .idle → c ≠ 3 →
    ∃ (t : State) (v : Word), exec (.clrTorgb c) s = .next t ∧ t.response = okResponse v 0 ∧
      ∃ u : State, exec (.clrFromrgb (v.setWidth 24)) t = .next u ∧
        u.response = okResponse (c.setWidth 32) 0) ∧
  (∀ s : State, s.seq = .idle → s.params.classifier = .standard →
    ∃ t : State, exec (.clrFromrgb 0x808080) s = .next t ∧ t.response = okResponse 0 0 ∧
      ∃ u : State, exec (.clrTorgb 0) t = .next u ∧ u.response ≠ okResponse 0x00808080 0)

/-! ### Framebuffer -/

/-- `FB.NEW` of an idle block: every byte of both planes zero, `ROT = 0`, nothing else changed (R121). -/
def Obligations.FbNewZeroesPlanes : Prop :=
  ∀ s : State, s.seq = .idle →
    ∃ t, exec .fbNew s = .next t ∧ (∀ p i, t.readByte p i = 0x00) ∧ t.rot = .deg0 ∧
      t = { s with
            black := t.black, red := t.red, rot := .deg0
            response := okResponse 0 0, transcript := [] }

/-- `FB.SETROT` sets `ROT` and nothing else, and `FB.GETROT` answers its code and changes nothing
(R79, R123, R124). -/
def Obligations.FbRotationWrittenAndRead : Prop :=
  ∀ s : State, s.seq = .idle →
    (∀ r : Rotation, exec (.fbSetrot r) s =
      .next { s with rot := r, response := okResponse 0 0, transcript := [] }) ∧
    exec .fbGetrot s =
      .next { s with
        response := okResponse
          (match s.rot with | .deg0 => 0 | .deg90 => 1 | .deg180 => 2 | .deg270 => 3) 0
        transcript := [] }

/-- `FB.SIZE` answers the logical dimensions, whole for every legal geometry, and changes nothing
(R76, R122, R125; the response and transcript held in the state are the model's choice, log 10). -/
def Obligations.FbSizeAnswersLogicalSize : Prop :=
  ∀ s : State, s.seq = .idle → s.params.Legal →
    ∃ r0 r1 : Word,
      exec .fbSize s = .next { s with response := okResponse r0 r1, transcript := [] } ∧
      (s.rot = .deg0 ∨ s.rot = .deg180 → r0.toNat = s.params.w ∧ r1.toNat = s.params.h) ∧
      (s.rot = .deg90 ∨ s.rot = .deg270 → r0.toNat = s.params.h ∧ r1.toNat = s.params.w)

/-- `FB.PIXEL` inside the logical surface writes the colour's bits into one bit of one byte of each
plane, at the address of R52 after the rotation map, and changes no other bit, byte or field (R52,
R128 to R131; that the test is one of the logical surface R131 marks as derived; the response held in
the state is the model's choice, log 10). -/
def Obligations.FbPixelWritesOneBit : Prop :=
  ∀ (s : State) (x y : Word) (c : BitVec 2),
    s.seq = .idle → MemOk s → s.params.Legal → c ≠ 3 →
    0 ≤ coord x → coord x < (logicalSize s.params.w s.params.h s.rot).1 →
    0 ≤ coord y → coord y < (logicalSize s.params.w s.params.h s.rot).2 →
    let q := phys s.params.w s.params.h s.rot (coord x) (coord y)
    let i := byteIndex s.params.w q.1.toNat q.2.toNat
    let m := bitMask q.1.toNat
    ∃ t, exec (.fbPixel x y c) s = .next t ∧ i < s.params.n ∧
      t.readByte .black i = (s.readByte .black i &&& ~~~m) ||| (if c.getLsbD 0 then m else 0) ∧
      t.readByte .red i = (s.readByte .red i &&& ~~~m) ||| (if c.getLsbD 1 then m else 0) ∧
      (∀ p j, j ≠ i → t.readByte p j = s.readByte p j) ∧
      t = { s with
            black := t.black, red := t.red
            response := okResponse 0 0, transcript := [] }

/-- Clip safety: `FB.PIXEL` outside the logical surface changes no byte of either plane and answers
`OK` (R134, which the spec marks as derived from R129 and R131). -/
def Obligations.FbPixelClipsOffSurface : Prop :=
  ∀ (s : State) (x y : Word) (c : BitVec 2), s.seq = .idle → c ≠ 3 →
    ¬ (0 ≤ coord x ∧ coord x < (logicalSize s.params.w s.params.h s.rot).1 ∧
       0 ≤ coord y ∧ coord y < (logicalSize s.params.w s.params.h s.rot).2) →
    exec (.fbPixel x y c) s = .next { s with response := okResponse 0 0, transcript := [] }

/-- The rotation map takes the logical surface exactly onto the panel and is undone by the inverse rows
of R128 (R127 and the inverse rows of R128, which the spec marks as derived; R131). -/
def Obligations.RotationMapIsBijective : Prop :=
  ∀ (w h : Nat) (r : Rotation) (x y px py : Int),
    let inv : Int × Int :=
      match r with
      | .deg0 => (px, py)
      | .deg90 => (py, w - 1 - px)
      | .deg180 => (w - 1 - px, h - 1 - py)
      | .deg270 => (h - 1 - py, px)
    (phys w h r x y = (px, py) ↔ inv = (x, y)) ∧
    (OnPanel w h (phys w h r x y) ↔
      0 ≤ x ∧ x < (logicalSize w h r).1 ∧ 0 ≤ y ∧ y < (logicalSize w h r).2)

/-- The byte index of a pixel is row-major with `W / 8` bytes a row and its mask is the one bit
`7 - px mod 8`, most significant first (R52, R53, R54); the two are a bijection from the physical
pixels onto the bit positions of a plane
(the last sentence of R52, which the spec marks as derived from R53 and R54). -/
def Obligations.PixelAddressIsBijective : Prop :=
  ∀ w h : Nat, w % 8 = 0 →
    (∀ px py, byteIndex w px py = py * (w / 8) + px / 8) ∧
    (∀ px b, (bitMask px).getLsbD b = decide (b = 7 - px % 8)) ∧
    (∀ px py, px < w → py < h → byteIndex w px py < h * (w / 8)) ∧
    (∀ px py px' py', px < w → py < h → px' < w → py' < h →
      byteIndex w px py = byteIndex w px' py' → bitMask px = bitMask px' → px = px' ∧ py = py') ∧
    (∀ i b, i < h * (w / 8) → b < 8 →
      ∃ px py, px < w ∧ py < h ∧ byteIndex w px py = i ∧ bitMask px = BitVec.twoPow 8 b)

/-- Two pixel writes at one coordinate leave the planes as the second alone would, and writes to
different physical pixels commute (R135, which the spec marks as derived from R129 and R130). -/
def Obligations.PixelLastWriteWins : Prop :=
  (∀ (s : State) (x y : Int) (c c' : Color), MemOk s → s.params.Legal →
    (s.writePixel x y c).writePixel x y c' = s.writePixel x y c') ∧
  (∀ (s : State) (x y x' y' : Int) (c c' : Color), MemOk s → s.params.Legal → (x, y) ≠ (x', y') →
    (s.writePixel x y c).writePixel x' y' c' = (s.writePixel x' y' c').writePixel x y c)

/-- `FB.PIXEL` with a colour is `writePixel` at the two signed coordinates, and twice the same request
leaves the planes as once (R78, R129; the response held in the state is log 10). -/
def Obligations.FbPixelIsIdempotent : Prop :=
  ∀ (s : State) (x y : Word) (c : BitVec 2) (col : Color),
    s.seq = .idle → MemOk s → s.params.Legal →
    (c, col) ∈ [((0 : BitVec 2), Color.white), (1, Color.black), (2, Color.red)] →
    let sx : Int := if x.toNat < 2147483648 then x.toNat else x.toNat - 4294967296
    let sy : Int := if y.toNat < 2147483648 then y.toNat else y.toNat - 4294967296
    let t : State := { s.writePixel sx sy col with response := okResponse 0 0, transcript := [] }
    exec (.fbPixel x y c) s = .next t ∧ exec (.fbPixel x y c) t = .next t

/-- A sequence of pixels drawn under any rotation leaves the planes that drawing the mapped pixels
under rotation 0 leaves (R136, which the spec marks as derived from R128 and R129). -/
def Obligations.RotationRedrawsSamePlanes : Prop :=
  ∀ (s : State) (r : Rotation) (pixels : List (Int × Int × Color)),
    let rotated := pixels.foldl (fun t q => t.writePixel q.1 q.2.1 q.2.2) { s with rot := r }
    let straight := pixels.foldl
      (fun t q =>
        t.writePixel (phys s.params.w s.params.h r q.1 q.2.1).1
          (phys s.params.w s.params.h r q.1 q.2.1).2 q.2.2)
      { s with rot := .deg0 }
    rotated.black = straight.black ∧ rotated.red = straight.red

/-- `FB.RDBYTE` of an idle block answers the byte, zero-extended, for every index below `N`, and
changes nothing else (R80, R133). -/
def Obligations.FbRdbyteAnswersByte : Prop :=
  ∀ (s : State) (i : Word) (p : Plane), s.seq = .idle → i.toNat < s.params.n →
    ∃ v : Word, exec (.fbRdbyte i p) s = .next { s with response := okResponse v 0, transcript := [] } ∧
      v.toNat = (Mem.read (match p with | .black => s.black | .red => s.red) i.toNat).toNat

/-! ### Refusals and holding -/

/-- The requests an idle block refuses after decoding: colour code 3, an index not below `N`, a
lifecycle request not legal in `LIFE`; each sets the mark and changes nothing else (R88, R90, R182). -/
def Obligations.RefusedRequestsOnlyMark : Prop :=
  ∀ s : State, s.seq = .idle →
    (∀ x y, exec (.fbPixel x y 3) s = .next { s with refused := some .reservedColor }) ∧
    exec (.clrTorgb 3) s = .next { s with refused := some .reservedColor } ∧
    (∀ (i : Word) (p : Plane), s.params.n ≤ i.toNat →
      exec (.fbRdbyte i p) s = .next { s with refused := some .indexOutOfRange }) ∧
    (s.life = .active → exec .epdInit s = .next { s with refused := some .illegalInLife }) ∧
    (s.life = .inactive → exec .epdUpdate s = .next { s with refused := some .illegalInLife }) ∧
    (s.life = .inactive → exec .epdPoweroff s = .next { s with refused := some .illegalInLife })

/-- A step sets the mark only for a cause of the complete list of R88, and then changes nothing but the
mark and the host port (R88, R90). -/
def Obligations.MarkHasListedCause : Prop :=
  ∀ (s t : State) (why : RefuseReason), step s = .next t → t.refused = some why →
    s.seq = .idle ∧ ∃ r rest, s.requests = r :: rest ∧
      t = { s with requests := rest, refused := some why } ∧
      (match why with
       | .unassignedOp => ∀ row ∈ requestRows, r.op ≠ row.1
       | .reservedOperand => ∃ row ∈ requestRows, r.op = row.1 ∧ ¬ r.MatchesRow row
       | .reservedColor =>
         (∃ x y, decodeRequest r = .ok (.fbPixel x y 3)) ∨ decodeRequest r = .ok (.clrTorgb 3)
       | .indexOutOfRange =>
         ∃ i p, decodeRequest r = .ok (.fbRdbyte i p) ∧ s.params.n ≤ i.toNat
       | .illegalInLife =>
         (s.life = .active ∧ decodeRequest r = .ok .epdInit) ∨
         (s.life = .inactive ∧
           (decodeRequest r = .ok .epdUpdate ∨ decodeRequest r = .ok .epdPoweroff)))

/-- A host request presented while an operation runs is held (R181). That `exec` of a held request
answers the same state is the model's reading of it, log 16; `step` takes no request then. -/
def Obligations.RequestHeldWhileRunning : Prop :=
  ∀ (i : Instr) (s : State) (o : Opr) (k off : Nat), i.IsHost → s.seq = .run o k off →
    exec i s = .next s

/-! ### Lifecycle -/

/-- A legal lifecycle request of an idle block is accepted: its table runs from step 0 (R180, R183; that
the response field is emptied is log 10). -/
def Obligations.LifecycleRequestAccepted : Prop :=
  ∀ s : State, s.seq = .idle →
    (s.life = .inactive → exec .epdInit s =
      .next { s with seq := .run .init 0 0, response := none, transcript := [] }) ∧
    (s.life = .active → exec .epdUpdate s =
      .next { s with seq := .run .update 0 0, response := none, transcript := [] }) ∧
    (s.life = .active → exec .epdPoweroff s =
      .next { s with seq := .run .poweroff 0 0, response := none, transcript := [] }) ∧
    exec .epdHwreset s =
      .next { s with seq := .run .hwreset 0 0, response := none, transcript := [] }

/-- `EPD.INIT` of an idle, Inactive block, no call of which fails: it is accepted and runs to
`LIFE = 1`, DC and RST high, response `OK`, with the transcript of R201 (a), for every `CHUNK` and
every number of busy reads (R185, R186, R187, R201). -/
def Obligations.InitRunsToActive : Prop :=
  ∀ (s : State) (calls : List CallAnswer) (levels : List Bool) (zeros : Nat),
    s.refused = none → s.seq = .idle → s.life = .inactive →
    let n := 4 + sendCalls s.chunk [0x0E] + sendCalls s.chunk [0x19] + sendCalls s.chunk [0x02] +
      sendCalls s.chunk [0xCF, 0x8D]
    s.callAnswers = List.replicate n .ok ++ calls → s.busyAnswers = busyLevels zeros ++ levels →
    ∃ a m, exec .epdInit s = .next a ∧ runSteps m a = .next
      { s with
        life := .active, dcOut := .high, rstOut := .high
        response := okResponse 0 0
        transcript :=
          [.dc true true] ++ pulseEvents ++
          sendEvents s.chunk 0x00 [0x0E] ++ busyEvents zeros ++
          sendEvents s.chunk 0xE5 [0x19] ++ sendEvents s.chunk 0xE0 [0x02] ++
          sendEvents s.chunk 0x00 [0xCF, 0x8D]
        callAnswers := calls, busyAnswers := levels, draws := s.draws + n + zeros + 1 }

/-- `EPD.UPDATE` of an idle, Active block, no call of which fails: it sends both planes whole and
refreshes, ends Active with DC high and response `OK`, and leaves the planes as they are, for every
geometry, `CHUNK` and `OPC` (R189, R190, R191, R193, R201). -/
def Obligations.UpdateSendsBothPlanes : Prop :=
  ∀ (s : State) (calls : List CallAnswer) (levels : List Bool) (zeros zeros' : Nat),
    s.refused = none → s.seq = .idle → s.life = .active →
    let n := sendCalls s.chunk (s.planeBytes .black) + sendCalls s.chunk (s.planeBytes .red) +
      sendCalls s.chunk [0x00] + sendCalls s.chunk [0x00]
    s.callAnswers = List.replicate n .ok ++ calls →
    s.busyAnswers = busyLevels zeros ++ busyLevels zeros' ++ levels →
    ∃ a m, exec .epdUpdate s = .next a ∧ runSteps m a = .next
      { s with
        dcOut := .high
        response := okResponse 0 0
        transcript :=
          sendEvents s.chunk s.params.opc.bufBlack (s.planeBytes .black) ++
          sendEvents s.chunk s.params.opc.bufRed (s.planeBytes .red) ++
          sendEvents s.chunk s.params.opc.powerOn [0x00] ++ busyEvents zeros ++
          sendEvents s.chunk s.params.opc.refresh [0x00] ++ busyEvents zeros'
        callAnswers := calls, busyAnswers := levels, draws := s.draws + n + zeros + zeros' + 2 }

/-- `EPD.POWEROFF` of an idle, Active block, no call of which fails: POWER_OFF, busy-wait, DC low,
150 ms, RST low, and the block is Inactive with both lines low (R194, R195, R196, R201). -/
def Obligations.PoweroffRunsToInactive : Prop :=
  ∀ (s : State) (calls : List CallAnswer) (levels : List Bool) (zeros : Nat),
    s.refused = none → s.seq = .idle → s.life = .active →
    let n := sendCalls s.chunk [0x00] + 2
    s.callAnswers = List.replicate n .ok ++ calls → s.busyAnswers = busyLevels zeros ++ levels →
    ∃ a m, exec .epdPoweroff s = .next a ∧ runSteps m a = .next
      { s with
        life := .inactive, dcOut := .low, rstOut := .low
        response := okResponse 0 0
        transcript :=
          sendEvents s.chunk s.params.opc.powerOff [0x00] ++ busyEvents zeros ++
          [.dc false true, .delay 150, .rst false true]
        callAnswers := calls, busyAnswers := levels, draws := s.draws + n + zeros + 1 }

/-- `EPD.HWRESET` of an idle block in either `LIFE`, no call of which fails: the reset pulse, RST high,
`LIFE` and DC unchanged (R198, R199, R200, R201). -/
def Obligations.HwresetPulsesReset : Prop :=
  ∀ (s : State) (calls : List CallAnswer),
    s.refused = none → s.seq = .idle → s.callAnswers = List.replicate 3 .ok ++ calls →
    ∃ a m, exec .epdHwreset s = .next a ∧ runSteps m a = .next
      { s with
        rstOut := .high, response := okResponse 0 0, transcript := pulseEvents
        callAnswers := calls, draws := s.draws + 3 }

/-! ### Panel link -/

/-- A frame's instruction where `SEQ` stands at one of its steps and the call succeeds: DC low, the
opcode as one write, DC high, the next chunk of the payload; and after the four frames that wait, one
read of the busy line (R158, R160, R162, R164 to R172; one port call a step and the draw counter are
the model's choices, logs 8 and 3). -/
def Obligations.FrameCallSucceeds : Prop :=
  ∀ (f : Frame) (s : State) (k off : Nat), s.seq = .run (frameEmitter f) k off →
    (k = frameFirst f → s.callAnswer = .ok → exec f.instr s = .next
      { s with
        callAnswers := s.callAnswers.tail, draws := s.draws + 1, dcOut := .low
        transcript := s.transcript ++ [.dc false true], seq := .run (frameEmitter f) (k + 1) 0 }) ∧
    (k = frameFirst f + 1 → off = 0 → s.callAnswer = .ok → exec f.instr s = .next
      { s with
        callAnswers := s.callAnswers.tail, draws := s.draws + 1
        transcript := s.transcript ++ [.wr [f.opcode s.params.opc] none]
        seq := .run (frameEmitter f) (k + 1) 0 }) ∧
    (k = frameFirst f + 2 → s.callAnswer = .ok → exec f.instr s = .next
      { s with
        callAnswers := s.callAnswers.tail, draws := s.draws + 1, dcOut := .high
        transcript := s.transcript ++ [.dc true true], seq := .run (frameEmitter f) (k + 1) 0 }) ∧
    (k = frameFirst f + 3 → off < (s.payload f).length → s.callAnswer = .ok →
      let n := chunkLen s.chunk ((s.payload f).length - off)
      exec f.instr s = .next
        { s with
          callAnswers := s.callAnswers.tail, draws := s.draws + 1
          transcript := s.transcript ++ [.wr (((s.payload f).drop off).take n) none]
          seq := if off + n < (s.payload f).length then .run (frameEmitter f) k (off + n)
            else .run (frameEmitter f) (k + 1) 0 }) ∧
    (k = frameFirst f + 4 → frameWaits f = true → exec f.instr s = .next
      { s with
        busyAnswers := s.busyAnswers.tail, draws := s.draws + 1
        transcript := s.transcript ++ [.busy s.busyAnswer]
        seq := if s.busyAnswer then .run (frameEmitter f) (k + 1) 0 else s.seq })

/-- A frame's instruction whose call fails ends the operation with that call's error, the collaborator's
value unchanged, `LIFE` kept and nothing undone (R159, R211, R212; one port call a step, the draw
counter and the recorded prefix are the model's choices, logs 8, 3 and 15). -/
def Obligations.FrameCallFails : Prop :=
  ∀ (f : Frame) (s : State) (k off : Nat) (e : CollabError) (d : Nat),
    s.seq = .run (frameEmitter f) k off → s.callAnswer = .err e d →
    (k = frameFirst f ∨ k = frameFirst f + 2 →
      exec f.instr s = .next
        { s with
          callAnswers := s.callAnswers.tail, draws := s.draws + 1, dcOut := .unknown, seq := .idle
          transcript := s.transcript ++ [.dc (decide (k = frameFirst f + 2)) false]
          response := some { st := .dcLineError, r0 := 0, r1 := 0, err := some e } }) ∧
    (∀ p, (k = frameFirst f + 1 ∧ p = [f.opcode s.params.opc]) ∨
        (k = frameFirst f + 3 ∧ p = s.payload f) → off < p.length →
      ∃ bytes delivered, bytes = (p.drop off).take (chunkLen s.chunk (p.length - off)) ∧
        delivered ≤ bytes.length ∧
        exec f.instr s = .next
          { s with
            callAnswers := s.callAnswers.tail, draws := s.draws + 1, seq := .idle
            transcript := s.transcript ++ [.wr bytes (some delivered)]
            response := some { st := .busError, r0 := 0, r1 := 0, err := some e } })

/-- A frame's instruction where `SEQ` does not stand at a step of the frame is refused by name: the
block emits a frame at no other place (R83, R86; log 8, the model's choice). -/
def Obligations.FrameElsewhereRefused : Prop :=
  ∀ (f : Frame) (s : State),
    (∀ k off, s.seq = .run (frameEmitter f) k off →
      ¬ (frameFirst f ≤ k ∧ k < frameFirst f + (if frameWaits f then 5 else 4))) →
    exec f.instr s = .refused .frameNotAtStep

/-- The whole emission of a frame, no call of which fails: from its first step to the step after its
payload, with the events of `SEND(op, p)` and nothing else changed (R158, R164 to R172). -/
def Obligations.FrameEmissionIsSend : Prop :=
  ∀ (f : Frame) (s : State) (calls : List CallAnswer),
    s.refused = none → s.seq = .run (frameEmitter f) (frameFirst f) 0 →
    s.callAnswers = List.replicate (sendCalls s.chunk (s.payload f)) .ok ++ calls →
    ∃ m, runSteps m s = .next
      { s with
        dcOut := .high, seq := .run (frameEmitter f) (frameFirst f + 4) 0
        transcript := s.transcript ++ sendEvents s.chunk (f.opcode s.params.opc) (s.payload f)
        callAnswers := calls, draws := s.draws + sendCalls s.chunk (s.payload f) }

/-- A transfer no write of which fails: as many writes as R157 counts, every one but the last `CHUNK`
bytes long, their concatenation the bytes of the transfer (R157, which the spec marks as derived from
R156; the answer queue and draw counter are the model's choice, log 3). -/
def Obligations.TransferSplitsIntoChunks : Prop :=
  ∀ (s : State) (o : Opr) (k : Nat) (p : List Byte) (calls : List CallAnswer),
    let n := if s.chunk = 0 ∨ p.length ≤ s.chunk.toNat then 1
      else (p.length + s.chunk.toNat - 1) / s.chunk.toNat
    s.refused = none → s.seq = .run o k 0 → (s.table o)[k]? = some (.xfer p) → p ≠ [] →
    s.callAnswers = List.replicate n .ok ++ calls →
    ∃ writes : List (List Byte), writes.length = n ∧ writes.flatten = p ∧
      (∀ j, j + 1 < n → ∀ w, writes[j]? = some w → w.length = s.chunk.toNat) ∧
      (∀ w, writes.getLast? = some w → w.length = p.length - (n - 1) * s.chunk.toNat) ∧
      runSteps n s = .next
        { s with
          seq := .run o (k + 1) 0, transcript := s.transcript ++ writes.map (fun w => .wr w none)
          callAnswers := calls, draws := s.draws + n }

/-- A step at an `RST` entry: the line is driven and the table goes on, or the operation ends with
`RST_LINE_ERROR` and the line unknown (R31, R153, R184, R211; the answer queue and draw counter are the
model's choice, log 3). -/
def Obligations.RstEntryDrivesLine : Prop :=
  ∀ (s : State) (o : Opr) (k off : Nat) (v : Bool),
    s.refused = none → s.seq = .run o k off → (s.table o)[k]? = some (.rst v) →
    (s.callAnswer = .ok → step s = .next
      { s with
        callAnswers := s.callAnswers.tail, draws := s.draws + 1
        rstOut := if v then .high else .low
        transcript := s.transcript ++ [.rst v true], seq := .run o (k + 1) 0 }) ∧
    (∀ e d, s.callAnswer = .err e d → step s = .next
      { s with
        callAnswers := s.callAnswers.tail, draws := s.draws + 1, rstOut := .unknown, seq := .idle
        transcript := s.transcript ++ [.rst v false]
        response := some { st := .rstLineError, r0 := 0, r1 := 0, err := some e } })

/-- A step at a `DC` entry, in a frame or not: the line is driven and the table goes on, or the
operation ends with `DC_LINE_ERROR` and the line unknown (R31, R152, R184, R211; the answer queue and
draw counter are the model's choice, log 3). -/
def Obligations.DcEntryDrivesLine : Prop :=
  ∀ (s : State) (o : Opr) (k off : Nat) (v : Bool),
    s.refused = none → s.seq = .run o k off → (s.table o)[k]? = some (.dc v) →
    (s.callAnswer = .ok → step s = .next
      { s with
        callAnswers := s.callAnswers.tail, draws := s.draws + 1
        dcOut := if v then .high else .low
        transcript := s.transcript ++ [.dc v true], seq := .run o (k + 1) 0 }) ∧
    (∀ e d, s.callAnswer = .err e d → step s = .next
      { s with
        callAnswers := s.callAnswers.tail, draws := s.draws + 1, dcOut := .unknown, seq := .idle
        transcript := s.transcript ++ [.dc v false]
        response := some { st := .dcLineError, r0 := 0, r1 := 0, err := some e } })

/-- A delay always completes as one event, and `END` writes `LIFE` unless it keeps it, idles the
sequencer and answers `OK` (R154, R184). -/
def Obligations.DelayAndEndEntries : Prop :=
  ∀ (s : State) (o : Opr) (k off : Nat), s.refused = none → s.seq = .run o k off →
    (∀ n, (s.table o)[k]? = some (.delay n) → step s = .next
      { s with transcript := s.transcript ++ [.delay n], seq := .run o (k + 1) 0 }) ∧
    (∀ l, (s.table o)[k]? = some (.fin (some l)) → step s = .next
      { s with life := l, seq := .idle, response := okResponse 0 0 }) ∧
    ((s.table o)[k]? = some (.fin none) → step s = .next
      { s with seq := .idle, response := okResponse 0 0 })

/-- A busy-wait has no bound: for every `n`, a line that reads 0 `n` times keeps the block at the same
step for `n` steps, each one `busy?0` event (R160, R161). -/
def Obligations.BusyWaitHasNoBound : Prop :=
  ∀ (s : State) (o : Opr) (k off n : Nat) (levels : List Bool),
    s.refused = none → s.seq = .run o k off → (s.table o)[k]? = some .busy →
    s.busyAnswers = List.replicate n false ++ levels →
    runSteps n s = .next
      { s with
        transcript := s.transcript ++ List.replicate n (.busy false)
        busyAnswers := levels, draws := s.draws + n }

/-- An error response ends the operation and undoes nothing: it names the failed call's kind and carries
the collaborator's value and no result; the transcript keeps its events and gains the failed one; only
the line the call drove is unknown, and `LIFE`, the planes, `ROT` and all else are as they were (R151
to R153, R184, R211, R212, R219; the answer queue and draw counter are log 3, the recorded prefix of a
failed write is log 15). -/
def Obligations.ErrorEndsOperation : Prop :=
  ∀ (s t : State) (o : Opr) (k off : Nat) (r : Response),
    s.seq = .run o k off → step s = .next t → s.response = none → t.response = some r →
    r.st ≠ .ok →
    ∃ e d ev, s.callAnswer = .err e d ∧ r.r0 = 0 ∧ r.r1 = 0 ∧ r.err = some e ∧
      t = { s with
            seq := .idle, response := some r, transcript := s.transcript ++ [ev]
            dcOut := t.dcOut, rstOut := t.rstOut
            callAnswers := s.callAnswers.tail, draws := s.draws + 1 } ∧
      ((r.st = .dcLineError ∧ r.st.code = 0x02 ∧ t.dcOut = .unknown ∧ t.rstOut = s.rstOut ∧
          ∃ v, (s.table o)[k]? = some (.dc v) ∧ ev = .dc v false) ∨
       (r.st = .rstLineError ∧ r.st.code = 0x03 ∧ t.rstOut = .unknown ∧ t.dcOut = s.dcOut ∧
          ∃ v, (s.table o)[k]? = some (.rst v) ∧ ev = .rst v false) ∨
       (r.st = .busError ∧ r.st.code = 0x01 ∧ t.dcOut = s.dcOut ∧ t.rstOut = s.rstOut ∧
          ∃ p bytes n, (s.table o)[k]? = some (.xfer p) ∧ bytes <:+: p ∧ n ≤ bytes.length ∧
            ev = .wr bytes (some n)))

/-! ### Rules stated whole -/

/-- The logical dimensions are `(W, H)` at 0 and 180 degrees and `(H, W)` at 90 and 270 (R122). -/
def Obligations.LogicalSizeFollowsRotation : Prop :=
  ∀ w h : Nat,
    logicalSize w h .deg0 = (w, h) ∧ logicalSize w h .deg180 = (w, h) ∧
      logicalSize w h .deg90 = (h, w) ∧ logicalSize w h .deg270 = (h, w)

/-- White clears the bit in both planes, Black sets it in the black plane and clears it in the red, Red
sets it in the red and clears it in the black; the two bits are bits 0 and 1 of the colour code; the
other bits of both bytes and all other bytes stay (R130). -/
def Obligations.PlaneBitsFollowColour : Prop :=
  colorOfCode 0 = some .white ∧ colorOfCode 1 = some .black ∧ colorOfCode 2 = some .red ∧
  ∀ (s : State) (i : Nat) (m : Byte), MemOk s →
    ((s.putPixel i m .white).readByte .black i = s.readByte .black i &&& ~~~m ∧
      (s.putPixel i m .white).readByte .red i = s.readByte .red i &&& ~~~m) ∧
    ((s.putPixel i m .black).readByte .black i = s.readByte .black i ||| m ∧
      (s.putPixel i m .black).readByte .red i = s.readByte .red i &&& ~~~m) ∧
    ((s.putPixel i m .red).readByte .black i = s.readByte .black i &&& ~~~m ∧
      (s.putPixel i m .red).readByte .red i = s.readByte .red i ||| m) ∧
    ∀ (c : BitVec 2) (col : Color), colorOfCode c = some col →
      (s.putPixel i m col).readByte .black i &&& m = (if c.getLsbD 0 then m else 0) ∧
      (s.putPixel i m col).readByte .red i &&& m = (if c.getLsbD 1 then m else 0) ∧
      ∀ p j, j ≠ i → (s.putPixel i m col).readByte p j = s.readByte p j
end

