-- ==== Sys2Proof/Laws/Memory.lean ====
section
/-! SUPPORT. The plane bytes: a read after a write, the canonical form, and that two canonical planes
with equal bytes are equal lists. -/

namespace Sys2Proof.Machine

open Sys2Proof

@[simp] theorem Mem.read_nil (i : Nat) : Mem.read [] i = unlistedByte := rfl

theorem Mem.wfFrom_mono {lo lo' : Nat} {m : Mem} (h : lo' ≤ lo) (w : Mem.wfFrom lo m = true) :
    Mem.wfFrom lo' m = true := by
  cases m with
  | nil => rfl
  | cons c m =>
    obtain ⟨k, v⟩ := c
    simp only [Mem.wfFrom, Bool.and_eq_true, decide_eq_true_eq] at w ⊢
    exact ⟨⟨by omega, w.1.2⟩, w.2⟩

/-- Below the first listed address every byte is the unlisted one. -/
theorem Mem.read_below {lo i : Nat} {m : Mem} (w : Mem.wfFrom lo m = true) (h : i < lo) :
    Mem.read m i = unlistedByte := by
  induction m generalizing lo with
  | nil => rfl
  | cons c m ih =>
    obtain ⟨k, v⟩ := c
    simp only [Mem.wfFrom, Bool.and_eq_true, decide_eq_true_eq] at w
    have hk : ¬ k = i := by omega
    simp only [Mem.read, hk, if_false]
    exact ih w.2 (by omega)

theorem Mem.read_write_other {m : Mem} {i j : Nat} (v : Byte) (h : j ≠ i) :
    Mem.read (Mem.write m i v) j = Mem.read m j := by
  induction m with
  | nil => by_cases hv : v = unlistedByte <;> simp [Mem.write, Mem.read, hv, Ne.symm h]
  | cons c m ih =>
    obtain ⟨k, w⟩ := c
    by_cases h1 : i < k
    · by_cases hv : v = unlistedByte <;> simp [Mem.write, Mem.read, h1, hv, Ne.symm h]
    · by_cases h2 : i = k
      · have hk : ¬ k = j := fun e => h (by omega)
        by_cases hv : v = unlistedByte <;> simp [Mem.write, Mem.read, h2, hv, hk]
      · simp only [Mem.write, h1, h2, if_false, Mem.read, ih]

theorem Mem.read_write_same {m : Mem} {i lo : Nat} {v : Byte} (w : Mem.wfFrom lo m = true) :
    Mem.read (Mem.write m i v) i = v := by
  induction m generalizing lo with
  | nil => by_cases hv : v = unlistedByte <;> simp [Mem.write, Mem.read, hv]
  | cons c m ih =>
    obtain ⟨k, x⟩ := c
    simp only [Mem.wfFrom, Bool.and_eq_true, decide_eq_true_eq] at w
    by_cases h1 : i < k
    · have hk : ¬ k = i := by omega
      by_cases hv : v = unlistedByte
      · simp [Mem.write, Mem.read, h1, hv, hk, Mem.read_below w.2 (by omega : i < k + 1)]
      · simp [Mem.write, Mem.read, h1, hv]
    · by_cases h2 : i = k
      · subst h2
        by_cases hv : v = unlistedByte
        · simp [Mem.write, hv, Mem.read_below w.2 (Nat.lt_succ_self i)]
        · simp [Mem.write, Mem.read, hv]
      · have hk : ¬ k = i := by omega
        simp [Mem.write, Mem.read, h1, h2, hk, ih w.2]

theorem Mem.wfFrom_write {m : Mem} {i lo : Nat} {v : Byte} (w : Mem.wfFrom lo m = true)
    (h : lo ≤ i) : Mem.wfFrom lo (Mem.write m i v) = true := by
  induction m generalizing lo with
  | nil => by_cases hv : v = unlistedByte <;> simp [Mem.write, Mem.wfFrom, hv, h]
  | cons c m ih =>
    obtain ⟨k, x⟩ := c
    have w' := w
    simp only [Mem.wfFrom, Bool.and_eq_true, decide_eq_true_eq] at w
    by_cases h1 : i < k
    · by_cases hv : v = unlistedByte
      · simpa [Mem.write, h1, hv] using w'
      · have : Mem.wfFrom (i + 1) m = true := Mem.wfFrom_mono (by omega) w.2
        simp [Mem.write, Mem.wfFrom, h1, hv, h, w.1.2, w.2]
    · by_cases h2 : i = k
      · subst h2
        by_cases hv : v = unlistedByte
        · simpa [Mem.write, hv] using Mem.wfFrom_mono (by omega) w.2
        · simp [Mem.write, Mem.wfFrom, hv, h, w.2]
      · simp [Mem.write, Mem.wfFrom, h1, h2, w.1.1, w.1.2, ih w.2 (by omega)]

/-- A write keeps the canonical form. -/
theorem Mem.wf_write {m : Mem} {i : Nat} {v : Byte} (w : Mem.wf m = true) :
    Mem.wf (Mem.write m i v) = true :=
  Mem.wfFrom_write w (Nat.zero_le i)

/-- A write inside `[0, n)` keeps every listed address there. -/
theorem Mem.below_write {m : Mem} {i n : Nat} {v : Byte} (b : Mem.below m n = true) (h : i < n) :
    Mem.below (Mem.write m i v) n = true := by
  induction m with
  | nil => by_cases hv : v = unlistedByte <;> simp [Mem.write, Mem.below, hv, h]
  | cons c m ih =>
    obtain ⟨k, x⟩ := c
    simp only [Mem.below, Bool.and_eq_true, decide_eq_true_eq] at b
    by_cases h1 : i < k
    · by_cases hv : v = unlistedByte <;> simp [Mem.write, Mem.below, h1, hv, h, b.1, b.2]
    · by_cases h2 : i = k
      · by_cases hv : v = unlistedByte <;> simp [Mem.write, Mem.below, h2, hv, b.1, b.2]
      · simp [Mem.write, Mem.below, h1, h2, b.1, ih b.2]

/-- A listed byte is not the unlisted one. -/
theorem Mem.read_head_ne {k lo : Nat} {v : Byte} {m : Mem}
    (w : Mem.wfFrom lo ((k, v) :: m) = true) : Mem.read ((k, v) :: m) k ≠ unlistedByte := by
  simp only [Mem.wfFrom, Bool.and_eq_true, decide_eq_true_eq] at w
  simpa [Mem.read] using w.1.2

/-- Two canonical planes with equal bytes are equal. -/
theorem Mem.ext_of_read {m m' : Mem} {lo lo' : Nat} (w : Mem.wfFrom lo m = true)
    (w' : Mem.wfFrom lo' m' = true) (h : ∀ i, Mem.read m i = Mem.read m' i) : m = m' := by
  induction m generalizing lo lo' m' with
  | nil =>
    cases m' with
    | nil => rfl
    | cons c t => obtain ⟨k, v⟩ := c; exact absurd (h k).symm (Mem.read_head_ne w')
  | cons c t ih =>
    obtain ⟨k, v⟩ := c
    cases m' with
    | nil => exact absurd (h k) (Mem.read_head_ne w)
    | cons c' t' =>
      obtain ⟨k', v'⟩ := c'
      have ne := Mem.read_head_ne w
      have ne' := Mem.read_head_ne w'
      simp only [Mem.wfFrom, Bool.and_eq_true, decide_eq_true_eq] at w w'
      have hk : k = k' := by
        rcases Nat.lt_trichotomy k k' with hl | hl | hl
        · refine absurd ?_ ne
          rw [h k]
          have : ¬ k' = k := by omega
          simpa [Mem.read, this] using Mem.read_below w'.2 (by omega : k < k' + 1)
        · exact hl
        · refine absurd ?_ ne'
          rw [← h k']
          have : ¬ k = k' := by omega
          simpa [Mem.read, this] using Mem.read_below w.2 (by omega : k' < k + 1)
      subst hk
      have hv : v = v' := by simpa [Mem.read] using h k
      subst hv
      refine congrArg _ (ih w.2 w'.2 fun i => ?_)
      by_cases hi : i < k + 1
      · rw [Mem.read_below w.2 hi, Mem.read_below w'.2 hi]
      · have : ¬ k = i := by omega
        simpa [Mem.read, this] using h i

/-- `State.reset`'s planes, and those of every constructed block, have the canonical form. -/
theorem State.construct_memOk (p : Params) (c : Word) : MemOk (State.construct p c) :=
  ⟨rfl, rfl, rfl, rfl⟩

/-- The planes of an update that touches neither plane nor the geometry stay canonical. -/
theorem MemOk.of_eq {s t : State} (h : MemOk s) (hb : t.black = s.black) (hr : t.red = s.red)
    (hp : t.params = s.params) : MemOk t := by
  unfold MemOk at h ⊢
  rw [hb, hr, hp]
  exact h

end Sys2Proof.Machine
end

