-- ==== Sys2Proof/Laws/State.lean ====
section
/-! SUPPORT. One lemma per field per update of the state: what the update leaves and what it writes. -/

namespace Sys2Proof.Machine

open Sys2Proof

/-! ### `State.refuse` -/

@[simp] theorem State.refuse_params (s : State) (r : RefuseReason) :
    (s.refuse r).params = s.params := rfl
@[simp] theorem State.refuse_chunk (s : State) (r : RefuseReason) :
    (s.refuse r).chunk = s.chunk := rfl
@[simp] theorem State.refuse_black (s : State) (r : RefuseReason) :
    (s.refuse r).black = s.black := rfl
@[simp] theorem State.refuse_red (s : State) (r : RefuseReason) : (s.refuse r).red = s.red := rfl
@[simp] theorem State.refuse_rot (s : State) (r : RefuseReason) : (s.refuse r).rot = s.rot := rfl
@[simp] theorem State.refuse_life (s : State) (r : RefuseReason) : (s.refuse r).life = s.life := rfl
@[simp] theorem State.refuse_dcOut (s : State) (r : RefuseReason) :
    (s.refuse r).dcOut = s.dcOut := rfl
@[simp] theorem State.refuse_rstOut (s : State) (r : RefuseReason) :
    (s.refuse r).rstOut = s.rstOut := rfl
@[simp] theorem State.refuse_seq (s : State) (r : RefuseReason) : (s.refuse r).seq = s.seq := rfl
@[simp] theorem State.refuse_refused (s : State) (r : RefuseReason) :
    (s.refuse r).refused = some r := rfl
@[simp] theorem State.refuse_requests (s : State) (r : RefuseReason) :
    (s.refuse r).requests = s.requests := rfl
@[simp] theorem State.refuse_response (s : State) (r : RefuseReason) :
    (s.refuse r).response = s.response := rfl
@[simp] theorem State.refuse_transcript (s : State) (r : RefuseReason) :
    (s.refuse r).transcript = s.transcript := rfl
@[simp] theorem State.refuse_callAnswers (s : State) (r : RefuseReason) :
    (s.refuse r).callAnswers = s.callAnswers := rfl
@[simp] theorem State.refuse_busyAnswers (s : State) (r : RefuseReason) :
    (s.refuse r).busyAnswers = s.busyAnswers := rfl
@[simp] theorem State.refuse_draws (s : State) (r : RefuseReason) :
    (s.refuse r).draws = s.draws := rfl

/-! ### `State.takeRequest` -/

@[simp] theorem State.takeRequest_params (s : State) (rest : List Request) :
    (s.takeRequest rest).params = s.params := rfl
@[simp] theorem State.takeRequest_chunk (s : State) (rest : List Request) :
    (s.takeRequest rest).chunk = s.chunk := rfl
@[simp] theorem State.takeRequest_black (s : State) (rest : List Request) :
    (s.takeRequest rest).black = s.black := rfl
@[simp] theorem State.takeRequest_red (s : State) (rest : List Request) :
    (s.takeRequest rest).red = s.red := rfl
@[simp] theorem State.takeRequest_rot (s : State) (rest : List Request) :
    (s.takeRequest rest).rot = s.rot := rfl
@[simp] theorem State.takeRequest_life (s : State) (rest : List Request) :
    (s.takeRequest rest).life = s.life := rfl
@[simp] theorem State.takeRequest_dcOut (s : State) (rest : List Request) :
    (s.takeRequest rest).dcOut = s.dcOut := rfl
@[simp] theorem State.takeRequest_rstOut (s : State) (rest : List Request) :
    (s.takeRequest rest).rstOut = s.rstOut := rfl
@[simp] theorem State.takeRequest_seq (s : State) (rest : List Request) :
    (s.takeRequest rest).seq = s.seq := rfl
@[simp] theorem State.takeRequest_refused (s : State) (rest : List Request) :
    (s.takeRequest rest).refused = s.refused := rfl
@[simp] theorem State.takeRequest_requests (s : State) (rest : List Request) :
    (s.takeRequest rest).requests = rest := rfl
@[simp] theorem State.takeRequest_response (s : State) (rest : List Request) :
    (s.takeRequest rest).response = s.response := rfl
@[simp] theorem State.takeRequest_transcript (s : State) (rest : List Request) :
    (s.takeRequest rest).transcript = s.transcript := rfl
@[simp] theorem State.takeRequest_callAnswers (s : State) (rest : List Request) :
    (s.takeRequest rest).callAnswers = s.callAnswers := rfl
@[simp] theorem State.takeRequest_busyAnswers (s : State) (rest : List Request) :
    (s.takeRequest rest).busyAnswers = s.busyAnswers := rfl
@[simp] theorem State.takeRequest_draws (s : State) (rest : List Request) :
    (s.takeRequest rest).draws = s.draws := rfl

/-! ### `State.setRot` -/

@[simp] theorem State.setRot_params (s : State) (r : Rotation) :
    (s.setRot r).params = s.params := rfl
@[simp] theorem State.setRot_chunk (s : State) (r : Rotation) : (s.setRot r).chunk = s.chunk := rfl
@[simp] theorem State.setRot_black (s : State) (r : Rotation) : (s.setRot r).black = s.black := rfl
@[simp] theorem State.setRot_red (s : State) (r : Rotation) : (s.setRot r).red = s.red := rfl
@[simp] theorem State.setRot_rot (s : State) (r : Rotation) : (s.setRot r).rot = r := rfl
@[simp] theorem State.setRot_life (s : State) (r : Rotation) : (s.setRot r).life = s.life := rfl
@[simp] theorem State.setRot_dcOut (s : State) (r : Rotation) : (s.setRot r).dcOut = s.dcOut := rfl
@[simp] theorem State.setRot_rstOut (s : State) (r : Rotation) :
    (s.setRot r).rstOut = s.rstOut := rfl
@[simp] theorem State.setRot_seq (s : State) (r : Rotation) : (s.setRot r).seq = s.seq := rfl
@[simp] theorem State.setRot_refused (s : State) (r : Rotation) :
    (s.setRot r).refused = s.refused := rfl
@[simp] theorem State.setRot_requests (s : State) (r : Rotation) :
    (s.setRot r).requests = s.requests := rfl
@[simp] theorem State.setRot_response (s : State) (r : Rotation) :
    (s.setRot r).response = s.response := rfl
@[simp] theorem State.setRot_transcript (s : State) (r : Rotation) :
    (s.setRot r).transcript = s.transcript := rfl
@[simp] theorem State.setRot_callAnswers (s : State) (r : Rotation) :
    (s.setRot r).callAnswers = s.callAnswers := rfl
@[simp] theorem State.setRot_busyAnswers (s : State) (r : Rotation) :
    (s.setRot r).busyAnswers = s.busyAnswers := rfl
@[simp] theorem State.setRot_draws (s : State) (r : Rotation) : (s.setRot r).draws = s.draws := rfl

/-! ### `State.complete` -/

@[simp] theorem State.complete_params (s : State) (r0 r1 : Word) :
    (s.complete r0 r1).params = s.params := rfl
@[simp] theorem State.complete_chunk (s : State) (r0 r1 : Word) :
    (s.complete r0 r1).chunk = s.chunk := rfl
@[simp] theorem State.complete_black (s : State) (r0 r1 : Word) :
    (s.complete r0 r1).black = s.black := rfl
@[simp] theorem State.complete_red (s : State) (r0 r1 : Word) :
    (s.complete r0 r1).red = s.red := rfl
@[simp] theorem State.complete_rot (s : State) (r0 r1 : Word) :
    (s.complete r0 r1).rot = s.rot := rfl
@[simp] theorem State.complete_life (s : State) (r0 r1 : Word) :
    (s.complete r0 r1).life = s.life := rfl
@[simp] theorem State.complete_dcOut (s : State) (r0 r1 : Word) :
    (s.complete r0 r1).dcOut = s.dcOut := rfl
@[simp] theorem State.complete_rstOut (s : State) (r0 r1 : Word) :
    (s.complete r0 r1).rstOut = s.rstOut := rfl
@[simp] theorem State.complete_seq (s : State) (r0 r1 : Word) :
    (s.complete r0 r1).seq = s.seq := rfl
@[simp] theorem State.complete_refused (s : State) (r0 r1 : Word) :
    (s.complete r0 r1).refused = s.refused := rfl
@[simp] theorem State.complete_requests (s : State) (r0 r1 : Word) :
    (s.complete r0 r1).requests = s.requests := rfl
@[simp] theorem State.complete_response (s : State) (r0 r1 : Word) :
    (s.complete r0 r1).response = some { st := .ok, r0 := r0, r1 := r1, err := none } := rfl
@[simp] theorem State.complete_transcript (s : State) (r0 r1 : Word) :
    (s.complete r0 r1).transcript = [] := rfl
@[simp] theorem State.complete_callAnswers (s : State) (r0 r1 : Word) :
    (s.complete r0 r1).callAnswers = s.callAnswers := rfl
@[simp] theorem State.complete_busyAnswers (s : State) (r0 r1 : Word) :
    (s.complete r0 r1).busyAnswers = s.busyAnswers := rfl
@[simp] theorem State.complete_draws (s : State) (r0 r1 : Word) :
    (s.complete r0 r1).draws = s.draws := rfl

/-! ### `State.accept` -/

@[simp] theorem State.accept_params (s : State) (o : Opr) : (s.accept o).params = s.params := rfl
@[simp] theorem State.accept_chunk (s : State) (o : Opr) : (s.accept o).chunk = s.chunk := rfl
@[simp] theorem State.accept_black (s : State) (o : Opr) : (s.accept o).black = s.black := rfl
@[simp] theorem State.accept_red (s : State) (o : Opr) : (s.accept o).red = s.red := rfl
@[simp] theorem State.accept_rot (s : State) (o : Opr) : (s.accept o).rot = s.rot := rfl
@[simp] theorem State.accept_life (s : State) (o : Opr) : (s.accept o).life = s.life := rfl
@[simp] theorem State.accept_dcOut (s : State) (o : Opr) : (s.accept o).dcOut = s.dcOut := rfl
@[simp] theorem State.accept_rstOut (s : State) (o : Opr) : (s.accept o).rstOut = s.rstOut := rfl
@[simp] theorem State.accept_seq (s : State) (o : Opr) : (s.accept o).seq = .run o 0 0 := rfl
@[simp] theorem State.accept_refused (s : State) (o : Opr) : (s.accept o).refused = s.refused := rfl
@[simp] theorem State.accept_requests (s : State) (o : Opr) :
    (s.accept o).requests = s.requests := rfl
@[simp] theorem State.accept_response (s : State) (o : Opr) : (s.accept o).response = none := rfl
@[simp] theorem State.accept_transcript (s : State) (o : Opr) : (s.accept o).transcript = [] := rfl
@[simp] theorem State.accept_callAnswers (s : State) (o : Opr) :
    (s.accept o).callAnswers = s.callAnswers := rfl
@[simp] theorem State.accept_busyAnswers (s : State) (o : Opr) :
    (s.accept o).busyAnswers = s.busyAnswers := rfl
@[simp] theorem State.accept_draws (s : State) (o : Opr) : (s.accept o).draws = s.draws := rfl

/-! ### `State.drawCall` -/

@[simp] theorem State.drawCall_params (s : State) : (s.drawCall).params = s.params := rfl
@[simp] theorem State.drawCall_chunk (s : State) : (s.drawCall).chunk = s.chunk := rfl
@[simp] theorem State.drawCall_black (s : State) : (s.drawCall).black = s.black := rfl
@[simp] theorem State.drawCall_red (s : State) : (s.drawCall).red = s.red := rfl
@[simp] theorem State.drawCall_rot (s : State) : (s.drawCall).rot = s.rot := rfl
@[simp] theorem State.drawCall_life (s : State) : (s.drawCall).life = s.life := rfl
@[simp] theorem State.drawCall_dcOut (s : State) : (s.drawCall).dcOut = s.dcOut := rfl
@[simp] theorem State.drawCall_rstOut (s : State) : (s.drawCall).rstOut = s.rstOut := rfl
@[simp] theorem State.drawCall_seq (s : State) : (s.drawCall).seq = s.seq := rfl
@[simp] theorem State.drawCall_refused (s : State) : (s.drawCall).refused = s.refused := rfl
@[simp] theorem State.drawCall_requests (s : State) : (s.drawCall).requests = s.requests := rfl
@[simp] theorem State.drawCall_response (s : State) : (s.drawCall).response = s.response := rfl
@[simp] theorem State.drawCall_transcript (s : State) :
    (s.drawCall).transcript = s.transcript := rfl
@[simp] theorem State.drawCall_callAnswers (s : State) :
    (s.drawCall).callAnswers = s.callAnswers.tail := rfl
@[simp] theorem State.drawCall_busyAnswers (s : State) :
    (s.drawCall).busyAnswers = s.busyAnswers := rfl
@[simp] theorem State.drawCall_draws (s : State) : (s.drawCall).draws = s.draws + 1 := rfl

/-! ### `State.drawBusy` -/

@[simp] theorem State.drawBusy_params (s : State) : (s.drawBusy).params = s.params := rfl
@[simp] theorem State.drawBusy_chunk (s : State) : (s.drawBusy).chunk = s.chunk := rfl
@[simp] theorem State.drawBusy_black (s : State) : (s.drawBusy).black = s.black := rfl
@[simp] theorem State.drawBusy_red (s : State) : (s.drawBusy).red = s.red := rfl
@[simp] theorem State.drawBusy_rot (s : State) : (s.drawBusy).rot = s.rot := rfl
@[simp] theorem State.drawBusy_life (s : State) : (s.drawBusy).life = s.life := rfl
@[simp] theorem State.drawBusy_dcOut (s : State) : (s.drawBusy).dcOut = s.dcOut := rfl
@[simp] theorem State.drawBusy_rstOut (s : State) : (s.drawBusy).rstOut = s.rstOut := rfl
@[simp] theorem State.drawBusy_seq (s : State) : (s.drawBusy).seq = s.seq := rfl
@[simp] theorem State.drawBusy_refused (s : State) : (s.drawBusy).refused = s.refused := rfl
@[simp] theorem State.drawBusy_requests (s : State) : (s.drawBusy).requests = s.requests := rfl
@[simp] theorem State.drawBusy_response (s : State) : (s.drawBusy).response = s.response := rfl
@[simp] theorem State.drawBusy_transcript (s : State) :
    (s.drawBusy).transcript = s.transcript := rfl
@[simp] theorem State.drawBusy_callAnswers (s : State) :
    (s.drawBusy).callAnswers = s.callAnswers := rfl
@[simp] theorem State.drawBusy_busyAnswers (s : State) :
    (s.drawBusy).busyAnswers = s.busyAnswers.tail := rfl
@[simp] theorem State.drawBusy_draws (s : State) : (s.drawBusy).draws = s.draws + 1 := rfl

/-! ### `State.emit` -/

@[simp] theorem State.emit_params (s : State) (e : Event) : (s.emit e).params = s.params := rfl
@[simp] theorem State.emit_chunk (s : State) (e : Event) : (s.emit e).chunk = s.chunk := rfl
@[simp] theorem State.emit_black (s : State) (e : Event) : (s.emit e).black = s.black := rfl
@[simp] theorem State.emit_red (s : State) (e : Event) : (s.emit e).red = s.red := rfl
@[simp] theorem State.emit_rot (s : State) (e : Event) : (s.emit e).rot = s.rot := rfl
@[simp] theorem State.emit_life (s : State) (e : Event) : (s.emit e).life = s.life := rfl
@[simp] theorem State.emit_dcOut (s : State) (e : Event) : (s.emit e).dcOut = s.dcOut := rfl
@[simp] theorem State.emit_rstOut (s : State) (e : Event) : (s.emit e).rstOut = s.rstOut := rfl
@[simp] theorem State.emit_seq (s : State) (e : Event) : (s.emit e).seq = s.seq := rfl
@[simp] theorem State.emit_refused (s : State) (e : Event) : (s.emit e).refused = s.refused := rfl
@[simp] theorem State.emit_requests (s : State) (e : Event) :
    (s.emit e).requests = s.requests := rfl
@[simp] theorem State.emit_response (s : State) (e : Event) :
    (s.emit e).response = s.response := rfl
@[simp] theorem State.emit_transcript (s : State) (e : Event) :
    (s.emit e).transcript = s.transcript ++ [e] := rfl
@[simp] theorem State.emit_callAnswers (s : State) (e : Event) :
    (s.emit e).callAnswers = s.callAnswers := rfl
@[simp] theorem State.emit_busyAnswers (s : State) (e : Event) :
    (s.emit e).busyAnswers = s.busyAnswers := rfl
@[simp] theorem State.emit_draws (s : State) (e : Event) : (s.emit e).draws = s.draws := rfl

/-! ### `State.setDc` -/

@[simp] theorem State.setDc_params (s : State) (l : Level) : (s.setDc l).params = s.params := rfl
@[simp] theorem State.setDc_chunk (s : State) (l : Level) : (s.setDc l).chunk = s.chunk := rfl
@[simp] theorem State.setDc_black (s : State) (l : Level) : (s.setDc l).black = s.black := rfl
@[simp] theorem State.setDc_red (s : State) (l : Level) : (s.setDc l).red = s.red := rfl
@[simp] theorem State.setDc_rot (s : State) (l : Level) : (s.setDc l).rot = s.rot := rfl
@[simp] theorem State.setDc_life (s : State) (l : Level) : (s.setDc l).life = s.life := rfl
@[simp] theorem State.setDc_dcOut (s : State) (l : Level) : (s.setDc l).dcOut = l := rfl
@[simp] theorem State.setDc_rstOut (s : State) (l : Level) : (s.setDc l).rstOut = s.rstOut := rfl
@[simp] theorem State.setDc_seq (s : State) (l : Level) : (s.setDc l).seq = s.seq := rfl
@[simp] theorem State.setDc_refused (s : State) (l : Level) : (s.setDc l).refused = s.refused := rfl
@[simp] theorem State.setDc_requests (s : State) (l : Level) :
    (s.setDc l).requests = s.requests := rfl
@[simp] theorem State.setDc_response (s : State) (l : Level) :
    (s.setDc l).response = s.response := rfl
@[simp] theorem State.setDc_transcript (s : State) (l : Level) :
    (s.setDc l).transcript = s.transcript := rfl
@[simp] theorem State.setDc_callAnswers (s : State) (l : Level) :
    (s.setDc l).callAnswers = s.callAnswers := rfl
@[simp] theorem State.setDc_busyAnswers (s : State) (l : Level) :
    (s.setDc l).busyAnswers = s.busyAnswers := rfl
@[simp] theorem State.setDc_draws (s : State) (l : Level) : (s.setDc l).draws = s.draws := rfl

/-! ### `State.setRst` -/

@[simp] theorem State.setRst_params (s : State) (l : Level) : (s.setRst l).params = s.params := rfl
@[simp] theorem State.setRst_chunk (s : State) (l : Level) : (s.setRst l).chunk = s.chunk := rfl
@[simp] theorem State.setRst_black (s : State) (l : Level) : (s.setRst l).black = s.black := rfl
@[simp] theorem State.setRst_red (s : State) (l : Level) : (s.setRst l).red = s.red := rfl
@[simp] theorem State.setRst_rot (s : State) (l : Level) : (s.setRst l).rot = s.rot := rfl
@[simp] theorem State.setRst_life (s : State) (l : Level) : (s.setRst l).life = s.life := rfl
@[simp] theorem State.setRst_dcOut (s : State) (l : Level) : (s.setRst l).dcOut = s.dcOut := rfl
@[simp] theorem State.setRst_rstOut (s : State) (l : Level) : (s.setRst l).rstOut = l := rfl
@[simp] theorem State.setRst_seq (s : State) (l : Level) : (s.setRst l).seq = s.seq := rfl
@[simp] theorem State.setRst_refused (s : State) (l : Level) :
    (s.setRst l).refused = s.refused := rfl
@[simp] theorem State.setRst_requests (s : State) (l : Level) :
    (s.setRst l).requests = s.requests := rfl
@[simp] theorem State.setRst_response (s : State) (l : Level) :
    (s.setRst l).response = s.response := rfl
@[simp] theorem State.setRst_transcript (s : State) (l : Level) :
    (s.setRst l).transcript = s.transcript := rfl
@[simp] theorem State.setRst_callAnswers (s : State) (l : Level) :
    (s.setRst l).callAnswers = s.callAnswers := rfl
@[simp] theorem State.setRst_busyAnswers (s : State) (l : Level) :
    (s.setRst l).busyAnswers = s.busyAnswers := rfl
@[simp] theorem State.setRst_draws (s : State) (l : Level) : (s.setRst l).draws = s.draws := rfl

/-! ### `State.advance` -/

@[simp] theorem State.advance_params (s : State) : (s.advance).params = s.params := rfl
@[simp] theorem State.advance_chunk (s : State) : (s.advance).chunk = s.chunk := rfl
@[simp] theorem State.advance_black (s : State) : (s.advance).black = s.black := rfl
@[simp] theorem State.advance_red (s : State) : (s.advance).red = s.red := rfl
@[simp] theorem State.advance_rot (s : State) : (s.advance).rot = s.rot := rfl
@[simp] theorem State.advance_life (s : State) : (s.advance).life = s.life := rfl
@[simp] theorem State.advance_dcOut (s : State) : (s.advance).dcOut = s.dcOut := rfl
@[simp] theorem State.advance_rstOut (s : State) : (s.advance).rstOut = s.rstOut := rfl
@[simp] theorem State.advance_seq (s : State) : (s.advance).seq = s.seq.next := rfl
@[simp] theorem State.advance_refused (s : State) : (s.advance).refused = s.refused := rfl
@[simp] theorem State.advance_requests (s : State) : (s.advance).requests = s.requests := rfl
@[simp] theorem State.advance_response (s : State) : (s.advance).response = s.response := rfl
@[simp] theorem State.advance_transcript (s : State) : (s.advance).transcript = s.transcript := rfl
@[simp] theorem State.advance_callAnswers (s : State) :
    (s.advance).callAnswers = s.callAnswers := rfl
@[simp] theorem State.advance_busyAnswers (s : State) :
    (s.advance).busyAnswers = s.busyAnswers := rfl
@[simp] theorem State.advance_draws (s : State) : (s.advance).draws = s.draws := rfl

/-! ### `State.setOff` -/

@[simp] theorem State.setOff_params (s : State) (n : Nat) : (s.setOff n).params = s.params := rfl
@[simp] theorem State.setOff_chunk (s : State) (n : Nat) : (s.setOff n).chunk = s.chunk := rfl
@[simp] theorem State.setOff_black (s : State) (n : Nat) : (s.setOff n).black = s.black := rfl
@[simp] theorem State.setOff_red (s : State) (n : Nat) : (s.setOff n).red = s.red := rfl
@[simp] theorem State.setOff_rot (s : State) (n : Nat) : (s.setOff n).rot = s.rot := rfl
@[simp] theorem State.setOff_life (s : State) (n : Nat) : (s.setOff n).life = s.life := rfl
@[simp] theorem State.setOff_dcOut (s : State) (n : Nat) : (s.setOff n).dcOut = s.dcOut := rfl
@[simp] theorem State.setOff_rstOut (s : State) (n : Nat) : (s.setOff n).rstOut = s.rstOut := rfl
@[simp] theorem State.setOff_seq (s : State) (n : Nat) : (s.setOff n).seq = s.seq.withOff n := rfl
@[simp] theorem State.setOff_refused (s : State) (n : Nat) : (s.setOff n).refused = s.refused := rfl
@[simp] theorem State.setOff_requests (s : State) (n : Nat) :
    (s.setOff n).requests = s.requests := rfl
@[simp] theorem State.setOff_response (s : State) (n : Nat) :
    (s.setOff n).response = s.response := rfl
@[simp] theorem State.setOff_transcript (s : State) (n : Nat) :
    (s.setOff n).transcript = s.transcript := rfl
@[simp] theorem State.setOff_callAnswers (s : State) (n : Nat) :
    (s.setOff n).callAnswers = s.callAnswers := rfl
@[simp] theorem State.setOff_busyAnswers (s : State) (n : Nat) :
    (s.setOff n).busyAnswers = s.busyAnswers := rfl
@[simp] theorem State.setOff_draws (s : State) (n : Nat) : (s.setOff n).draws = s.draws := rfl

/-! ### `State.raise` -/

@[simp] theorem State.raise_params (s : State) (st : Status) (e : CollabError) :
    (s.raise st e).params = s.params := rfl
@[simp] theorem State.raise_chunk (s : State) (st : Status) (e : CollabError) :
    (s.raise st e).chunk = s.chunk := rfl
@[simp] theorem State.raise_black (s : State) (st : Status) (e : CollabError) :
    (s.raise st e).black = s.black := rfl
@[simp] theorem State.raise_red (s : State) (st : Status) (e : CollabError) :
    (s.raise st e).red = s.red := rfl
@[simp] theorem State.raise_rot (s : State) (st : Status) (e : CollabError) :
    (s.raise st e).rot = s.rot := rfl
@[simp] theorem State.raise_life (s : State) (st : Status) (e : CollabError) :
    (s.raise st e).life = s.life := rfl
@[simp] theorem State.raise_dcOut (s : State) (st : Status) (e : CollabError) :
    (s.raise st e).dcOut = s.dcOut := rfl
@[simp] theorem State.raise_rstOut (s : State) (st : Status) (e : CollabError) :
    (s.raise st e).rstOut = s.rstOut := rfl
@[simp] theorem State.raise_seq (s : State) (st : Status) (e : CollabError) :
    (s.raise st e).seq = .idle := rfl
@[simp] theorem State.raise_refused (s : State) (st : Status) (e : CollabError) :
    (s.raise st e).refused = s.refused := rfl
@[simp] theorem State.raise_requests (s : State) (st : Status) (e : CollabError) :
    (s.raise st e).requests = s.requests := rfl
@[simp] theorem State.raise_response (s : State) (st : Status) (e : CollabError) :
    (s.raise st e).response = some { st := st, r0 := 0, r1 := 0, err := some e } := rfl
@[simp] theorem State.raise_transcript (s : State) (st : Status) (e : CollabError) :
    (s.raise st e).transcript = s.transcript := rfl
@[simp] theorem State.raise_callAnswers (s : State) (st : Status) (e : CollabError) :
    (s.raise st e).callAnswers = s.callAnswers := rfl
@[simp] theorem State.raise_busyAnswers (s : State) (st : Status) (e : CollabError) :
    (s.raise st e).busyAnswers = s.busyAnswers := rfl
@[simp] theorem State.raise_draws (s : State) (st : Status) (e : CollabError) :
    (s.raise st e).draws = s.draws := rfl

/-! ### `State.finish` -/

@[simp] theorem State.finish_params (s : State) (l : Option Life) :
    (s.finish l).params = s.params := rfl
@[simp] theorem State.finish_chunk (s : State) (l : Option Life) :
    (s.finish l).chunk = s.chunk := rfl
@[simp] theorem State.finish_black (s : State) (l : Option Life) :
    (s.finish l).black = s.black := rfl
@[simp] theorem State.finish_red (s : State) (l : Option Life) : (s.finish l).red = s.red := rfl
@[simp] theorem State.finish_rot (s : State) (l : Option Life) : (s.finish l).rot = s.rot := rfl
@[simp] theorem State.finish_life (s : State) (l : Option Life) :
    (s.finish l).life = l.getD s.life := rfl
@[simp] theorem State.finish_dcOut (s : State) (l : Option Life) :
    (s.finish l).dcOut = s.dcOut := rfl
@[simp] theorem State.finish_rstOut (s : State) (l : Option Life) :
    (s.finish l).rstOut = s.rstOut := rfl
@[simp] theorem State.finish_seq (s : State) (l : Option Life) : (s.finish l).seq = .idle := rfl
@[simp] theorem State.finish_refused (s : State) (l : Option Life) :
    (s.finish l).refused = s.refused := rfl
@[simp] theorem State.finish_requests (s : State) (l : Option Life) :
    (s.finish l).requests = s.requests := rfl
@[simp] theorem State.finish_response (s : State) (l : Option Life) :
    (s.finish l).response = some { st := .ok, r0 := 0, r1 := 0, err := none } := rfl
@[simp] theorem State.finish_transcript (s : State) (l : Option Life) :
    (s.finish l).transcript = s.transcript := rfl
@[simp] theorem State.finish_callAnswers (s : State) (l : Option Life) :
    (s.finish l).callAnswers = s.callAnswers := rfl
@[simp] theorem State.finish_busyAnswers (s : State) (l : Option Life) :
    (s.finish l).busyAnswers = s.busyAnswers := rfl
@[simp] theorem State.finish_draws (s : State) (l : Option Life) :
    (s.finish l).draws = s.draws := rfl

/-! ### `State.newFramebuffer` -/

@[simp] theorem State.newFramebuffer_params (s : State) :
    (s.newFramebuffer).params = s.params := rfl
@[simp] theorem State.newFramebuffer_chunk (s : State) : (s.newFramebuffer).chunk = s.chunk := rfl
@[simp] theorem State.newFramebuffer_black (s : State) : (s.newFramebuffer).black = [] := rfl
@[simp] theorem State.newFramebuffer_red (s : State) : (s.newFramebuffer).red = [] := rfl
@[simp] theorem State.newFramebuffer_rot (s : State) : (s.newFramebuffer).rot = .deg0 := rfl
@[simp] theorem State.newFramebuffer_life (s : State) : (s.newFramebuffer).life = s.life := rfl
@[simp] theorem State.newFramebuffer_dcOut (s : State) : (s.newFramebuffer).dcOut = s.dcOut := rfl
@[simp] theorem State.newFramebuffer_rstOut (s : State) :
    (s.newFramebuffer).rstOut = s.rstOut := rfl
@[simp] theorem State.newFramebuffer_seq (s : State) : (s.newFramebuffer).seq = s.seq := rfl
@[simp] theorem State.newFramebuffer_refused (s : State) :
    (s.newFramebuffer).refused = s.refused := rfl
@[simp] theorem State.newFramebuffer_requests (s : State) :
    (s.newFramebuffer).requests = s.requests := rfl
@[simp] theorem State.newFramebuffer_response (s : State) :
    (s.newFramebuffer).response = s.response := rfl
@[simp] theorem State.newFramebuffer_transcript (s : State) :
    (s.newFramebuffer).transcript = s.transcript := rfl
@[simp] theorem State.newFramebuffer_callAnswers (s : State) :
    (s.newFramebuffer).callAnswers = s.callAnswers := rfl
@[simp] theorem State.newFramebuffer_busyAnswers (s : State) :
    (s.newFramebuffer).busyAnswers = s.busyAnswers := rfl
@[simp] theorem State.newFramebuffer_draws (s : State) : (s.newFramebuffer).draws = s.draws := rfl

/-! ### `State.putPixel` -/

@[simp] theorem State.putPixel_params (s : State) (i : Nat) (m : Byte) (c : Color) :
    (s.putPixel i m c).params = s.params := rfl
@[simp] theorem State.putPixel_chunk (s : State) (i : Nat) (m : Byte) (c : Color) :
    (s.putPixel i m c).chunk = s.chunk := rfl
@[simp] theorem State.putPixel_black (s : State) (i : Nat) (m : Byte) (c : Color) :
    (s.putPixel i m c).black =
      Mem.write s.black i (putBits (Mem.read s.black i) m (blackBit c)) := rfl
@[simp] theorem State.putPixel_red (s : State) (i : Nat) (m : Byte) (c : Color) :
    (s.putPixel i m c).red = Mem.write s.red i (putBits (Mem.read s.red i) m (redBit c)) := rfl
@[simp] theorem State.putPixel_rot (s : State) (i : Nat) (m : Byte) (c : Color) :
    (s.putPixel i m c).rot = s.rot := rfl
@[simp] theorem State.putPixel_life (s : State) (i : Nat) (m : Byte) (c : Color) :
    (s.putPixel i m c).life = s.life := rfl
@[simp] theorem State.putPixel_dcOut (s : State) (i : Nat) (m : Byte) (c : Color) :
    (s.putPixel i m c).dcOut = s.dcOut := rfl
@[simp] theorem State.putPixel_rstOut (s : State) (i : Nat) (m : Byte) (c : Color) :
    (s.putPixel i m c).rstOut = s.rstOut := rfl
@[simp] theorem State.putPixel_seq (s : State) (i : Nat) (m : Byte) (c : Color) :
    (s.putPixel i m c).seq = s.seq := rfl
@[simp] theorem State.putPixel_refused (s : State) (i : Nat) (m : Byte) (c : Color) :
    (s.putPixel i m c).refused = s.refused := rfl
@[simp] theorem State.putPixel_requests (s : State) (i : Nat) (m : Byte) (c : Color) :
    (s.putPixel i m c).requests = s.requests := rfl
@[simp] theorem State.putPixel_response (s : State) (i : Nat) (m : Byte) (c : Color) :
    (s.putPixel i m c).response = s.response := rfl
@[simp] theorem State.putPixel_transcript (s : State) (i : Nat) (m : Byte) (c : Color) :
    (s.putPixel i m c).transcript = s.transcript := rfl
@[simp] theorem State.putPixel_callAnswers (s : State) (i : Nat) (m : Byte) (c : Color) :
    (s.putPixel i m c).callAnswers = s.callAnswers := rfl
@[simp] theorem State.putPixel_busyAnswers (s : State) (i : Nat) (m : Byte) (c : Color) :
    (s.putPixel i m c).busyAnswers = s.busyAnswers := rfl
@[simp] theorem State.putPixel_draws (s : State) (i : Nat) (m : Byte) (c : Color) :
    (s.putPixel i m c).draws = s.draws := rfl

end Sys2Proof.Machine
end

