-- ==== Sys2Proof/Laws/PerInstr.lean ====
section
/-! SUPPORT. Per instruction: its encoding is what its row of spec/opcode_table.json asks. -/

namespace Sys2Proof.Laws.TableRow

open Sys2Proof

/-- A row of spec/opcode_table.json: match and mask of a request, or the opcode byte of a frame. -/
inductive Row where
  | request (pattern mask : BitVec 96)
  | frame (opcode : Byte)

/-- The row of each instruction, as spec/opcode_table.json prints it. -/
def row : Instr → Row
  | .epdInit => .request 0x010000000000000000000000 0xFFFFFFFFFFFFFFFFFFFFFFFF
  | .epdUpdate => .request 0x020000000000000000000000 0xFFFFFFFFFFFFFFFFFFFFFFFF
  | .epdPoweroff => .request 0x030000000000000000000000 0xFFFFFFFFFFFFFFFFFFFFFFFF
  | .epdHwreset => .request 0x040000000000000000000000 0xFFFFFFFFFFFFFFFFFFFFFFFF
  | .fbNew => .request 0x100000000000000000000000 0xFFFFFFFFFFFFFFFFFFFFFFFF
  | .fbSetrot _ => .request 0x110000000000000000000000 0xFFFFFFFFFFFFFFFFFFFFFFFC
  | .fbGetrot => .request 0x120000000000000000000000 0xFFFFFFFFFFFFFFFFFFFFFFFF
  | .fbSize => .request 0x130000000000000000000000 0xFFFFFFFFFFFFFFFFFFFFFFFF
  | .fbPixel _ _ _ => .request 0x140000000000000000000000 0xFF0000000000000000FFFFFC
  | .fbRdbyte _ _ => .request 0x150000000000000000000000 0xFF00000000FFFFFFFFFFFFFE
  | .clrTorgb _ => .request 0x200000000000000000000000 0xFFFFFFFFFFFFFFFFFFFFFFFC
  | .clrFromrgb _ => .request 0x210000000000000000000000 0xFFFFFFFFFFFFFFFFFF000000
  | .clrFrommono _ => .request 0x220000000000000000000000 0xFFFFFFFFFFFFFFFFFFFFFFFE
  | .softReset => .frame 0x00
  | .inputTemp => .frame 0xE5
  | .activeTemp => .frame 0xE0
  | .panelSetting => .frame 0x00
  | .bufBlack => .frame 0x10
  | .bufRed => .frame 0x13
  | .powerOn => .frame 0x04
  | .refresh => .frame 0x12
  | .powerOff => .frame 0x02

/-- Under the default `OPC`, which the table prints, the encoding is the row's. -/
def Statement (i : Instr) : Prop :=
  ∀ black red : List Byte,
    match row i with
    | .request pattern mask =>
      ∃ r, encode OpcMap.standard black red i = .request r ∧ r.toBits &&& mask = pattern
    | .frame opcode => ∃ p, encode OpcMap.standard black red i = .frame (opcode :: p)

/-- A request matches its row when each of its fields does. -/
theorem request_fields {op : Byte} {a b : Word} {c : U24} {mo : Byte} {ma mb : Word} {mc : U24}
    {po : Byte} {pc : U24} (ho : op &&& mo = po) (ha : a &&& ma = 0) (hb : b &&& mb = 0)
    (hc : c &&& mc = pc) :
    Request.toBits { op := op, a := a, b := b, c := c } &&& (mo ++ ma ++ mb ++ mc) =
      po ++ (0 : Word) ++ (0 : Word) ++ pc := by
  have h : (op ++ a ++ b ++ c) &&& (mo ++ ma ++ mb ++ mc) = po ++ (0 : Word) ++ (0 : Word) ++ pc := by
    rw [BitVec.and_append, BitVec.and_append, BitVec.and_append, ho, ha, hb, hc]
  exact h

theorem epdInit : Statement .epdInit := fun _ _ =>
  ⟨_, rfl, by decide⟩

theorem epdUpdate : Statement .epdUpdate := fun _ _ =>
  ⟨_, rfl, by decide⟩

theorem epdPoweroff : Statement .epdPoweroff := fun _ _ =>
  ⟨_, rfl, by decide⟩

theorem epdHwreset : Statement .epdHwreset := fun _ _ =>
  ⟨_, rfl, by decide⟩

theorem fbNew : Statement .fbNew := fun _ _ =>
  ⟨_, rfl, by decide⟩

theorem fbSetrot (r : Rotation) : Statement (.fbSetrot r) := fun _ _ =>
  ⟨_, rfl, by cases r <;> decide⟩

theorem fbGetrot : Statement .fbGetrot := fun _ _ =>
  ⟨_, rfl, by decide⟩

theorem fbSize : Statement .fbSize := fun _ _ =>
  ⟨_, rfl, by decide⟩

theorem fbPixel (x y : Word) (c : BitVec 2) : Statement (.fbPixel x y c) := fun _ _ =>
  ⟨_, rfl, request_fields (mo := 0xFF) (ma := 0) (mb := 0) (mc := 0xFFFFFC) (pc := 0) rfl
    BitVec.and_zero BitVec.and_zero (by revert c; decide)⟩

theorem fbRdbyte (i : Word) (p : Plane) : Statement (.fbRdbyte i p) := fun _ _ =>
  ⟨_, rfl, request_fields (mo := 0xFF) (ma := 0) (mb := 0xFFFFFFFF) (mc := 0xFFFFFE) (pc := 0) rfl
    BitVec.and_zero rfl (by cases p <;> decide)⟩

theorem clrTorgb (c : BitVec 2) : Statement (.clrTorgb c) := fun _ _ =>
  ⟨_, rfl, request_fields (mo := 0xFF) (ma := 0xFFFFFFFF) (mb := 0xFFFFFFFF) (mc := 0xFFFFFC) (pc := 0)
    rfl rfl rfl (by revert c; decide)⟩

theorem clrFromrgb (v : U24) : Statement (.clrFromrgb v) := fun _ _ =>
  ⟨_, rfl, request_fields (mo := 0xFF) (ma := 0xFFFFFFFF) (mb := 0xFFFFFFFF) (mc := 0) (pc := 0)
    rfl rfl rfl BitVec.and_zero⟩

theorem clrFrommono (m : Mono) : Statement (.clrFrommono m) := fun _ _ =>
  ⟨_, rfl, by cases m <;> decide⟩

theorem softReset : Statement .softReset := fun _ _ => ⟨_, rfl⟩

theorem inputTemp : Statement .inputTemp := fun _ _ => ⟨_, rfl⟩

theorem activeTemp : Statement .activeTemp := fun _ _ => ⟨_, rfl⟩

theorem panelSetting : Statement .panelSetting := fun _ _ => ⟨_, rfl⟩

theorem bufBlack : Statement .bufBlack := fun _ _ => ⟨_, rfl⟩

theorem bufRed : Statement .bufRed := fun _ _ => ⟨_, rfl⟩

theorem powerOn : Statement .powerOn := fun _ _ => ⟨_, rfl⟩

theorem refresh : Statement .refresh := fun _ _ => ⟨_, rfl⟩

theorem powerOff : Statement .powerOff := fun _ _ => ⟨_, rfl⟩

end Sys2Proof.Laws.TableRow
end

