-- ==== Sys2Proof/Laws/Pixel.lean ====
section
/-! SUPPORT. Pixel writes: the address is in range, the written bits, plane exclusivity. -/

namespace Sys2Proof.Machine

open Sys2Proof

/-- No colour sets both plane bits (41_framebuffer.md R130). -/
theorem plane_bits_exclusive (c : Color) : (blackBit c && redBit c) = false := by
  cases c <;> rfl

/-- Writing a colour's bits under one mask keeps two bytes disjoint. -/
theorem putBits_disjoint {kb kr m : Byte} (c : Color) (h : kb &&& kr = 0) :
    putBits kb m (blackBit c) &&& putBits kr m (redBit c) = 0 := by
  refine BitVec.eq_of_getElem_eq fun i hi => ?_
  have bit : (kb &&& kr)[i] = false := by simp [h]
  cases c <;>
    (simp [putBits, blackBit, redBit] at bit ⊢
     cases hb : kb[i] <;> cases hr : kr[i] <;> cases hm : m[i] <;> simp_all)

/-- A coordinate operand as two's complement (30_encoding.md R78, 00_scope.md R14). -/
theorem coord_eq (v : Word) :
    coord v = if v.toNat < 2147483648 then (v.toNat : Int) else (v.toNat : Int) - 4294967296 := by
  unfold coord
  rw [BitVec.toInt_eq_toNat_cond]
  split <;> split <;> omega

/-- Of two writes to the same bits of a byte the second one stays. -/
theorem putBits_putBits (b m : Byte) (u v : Bool) : putBits (putBits b m u) m v = putBits b m v := by
  simp only [putBits]
  ext k
  cases u <;> cases v <;> simp <;> cases b[k] <;> cases m[k] <;> simp

/-- A pixel on the panel has a byte index inside the planes (20_memory.md R52). -/
theorem byteIndex_lt {w h px py : Nat} (hw : w % 8 = 0) (hx : px < w) (hy : py < h) :
    byteIndex w px py < h * (w / 8) := by
  unfold byteIndex
  have h1 : px / 8 < w / 8 := by omega
  calc py * (w / 8) + px / 8 < py * (w / 8) + w / 8 := by omega
    _ = (py + 1) * (w / 8) := by ring
    _ ≤ h * (w / 8) := Nat.mul_le_mul_right _ hy

/-- Where a pixel write lands, its index is inside the planes. -/
theorem State.pixelCell_lt {s : State} {x y : Int} {i : Nat} {m : Byte}
    (hw : s.params.w % 8 = 0) (h : s.pixelCell x y = some (i, m)) : i < s.params.n := by
  simp only [State.pixelCell] at h
  split at h
  · next hp =>
    obtain ⟨h1, h2, h3, h4⟩ := hp
    simp only [Option.some.injEq, Prod.mk.injEq] at h
    rw [← h.1]
    exact byteIndex_lt hw (by omega) (by omega)
  · cases h

/-- Everything a pixel write does: it is clipped, or it puts the colour's bits into one byte of each
plane (41_framebuffer.md R129, R131). -/
theorem State.writePixel_cases (s : State) (x y : Int) (c : Color) :
    (s.pixelCell x y = none ∧ s.writePixel x y c = s) ∨
      ∃ i m, s.pixelCell x y = some (i, m) ∧ s.writePixel x y c = s.putPixel i m c := by
  unfold State.writePixel
  cases h : s.pixelCell x y with
  | none => exact .inl ⟨rfl, rfl⟩
  | some q => obtain ⟨i, m⟩ := q; exact .inr ⟨i, m, rfl, rfl⟩

/-- A pixel write inside the planes keeps their form. -/
theorem State.putPixel_memOk {s : State} {i : Nat} {m : Byte} (c : Color) (h : MemOk s)
    (hi : i < s.params.n) : MemOk (s.putPixel i m c) :=
  ⟨Mem.wf_write h.1, Mem.wf_write h.2.1, Mem.below_write h.2.2.1 hi, Mem.below_write h.2.2.2 hi⟩

/-- The bytes of a plane after a pixel write. -/
theorem State.putPixel_read {s : State} (h : MemOk s) (i : Nat) (m : Byte) (c : Color) (p : Plane)
    (j : Nat) :
    (s.putPixel i m c).readByte p j =
      if j = i then
        putBits (s.readByte p i) m (match p with | .black => blackBit c | .red => redBit c)
      else s.readByte p j := by
  by_cases hj : j = i
  · subst hj
    cases p
    · simpa [State.readByte, State.plane] using Mem.read_write_same h.1
    · simpa [State.readByte, State.plane] using Mem.read_write_same h.2.1
  · cases p <;> simp [State.readByte, State.plane, hj, Mem.read_write_other _ hj]

/-- A pixel write keeps the planes exclusive (10_state.md R35). -/
theorem State.putPixel_exclusive {s : State} (h : MemOk s) (x : PlanesExclusive s) (i : Nat)
    (m : Byte) (c : Color) : PlanesExclusive (s.putPixel i m c) := by
  intro j
  rw [State.putPixel_read h, State.putPixel_read h]
  by_cases hj : j = i
  · simp only [hj, if_true]
    exact putBits_disjoint c (x i)
  · simpa [hj] using x j

end Sys2Proof.Machine
end

