-- ==== Sys2Proof/Laws/Ports.lean ====
section
/-! SUPPORT. Everything each port call and each table entry can do, and what no entry touches. -/

namespace Sys2Proof.Machine

open Sys2Proof

/-- The parts of the state that a running operation leaves alone: the construction values, the
planes, the rotation, the refusal mark and the host port (43_lifecycle.md R181, R202). -/
structure SameStore (s t : State) : Prop where
  params   : t.params = s.params
  chunk    : t.chunk = s.chunk
  black    : t.black = s.black
  red      : t.red = s.red
  rot      : t.rot = s.rot
  refused  : t.refused = s.refused
  requests : t.requests = s.requests

theorem SameStore.readByte {s t : State} (h : SameStore s t) (p : Plane) (i : Nat) :
    t.readByte p i = s.readByte p i := by
  cases p <;> simp [State.readByte, State.plane, h.black, h.red]

/-- An idle block carries a request out. -/
theorem State.whenIdle_idle {s : State} (h : s.seq = .idle) (f : State → State) :
    s.whenIdle f = f s := by simp [State.whenIdle, h]

/-- A running block holds a request (43_lifecycle.md R181). -/
theorem State.whenIdle_run {s : State} {o : Opr} {k off : Nat} (h : s.seq = .run o k off)
    (f : State → State) : s.whenIdle f = s := by simp [State.whenIdle, h]

/-- A `DC` step drives the line, or ends the operation (42_panel_link.md R152). -/
theorem State.callDc_cases (s : State) (v : Bool) :
    (s.callAnswer = .ok ∧
      s.callDc v = ((s.drawCall.emit (.dc v true)).setDc (Level.ofBool v)).advance) ∨
    ∃ e d, s.callAnswer = .err e d ∧
      s.callDc v = ((s.drawCall.emit (.dc v false)).setDc .unknown).raise .dcLineError e := by
  unfold State.callDc
  cases h : s.callAnswer with
  | ok => exact .inl ⟨rfl, rfl⟩
  | err e d => exact .inr ⟨e, d, rfl, rfl⟩

/-- An `RST` step drives the line, or ends the operation (42_panel_link.md R153). -/
theorem State.callRst_cases (s : State) (v : Bool) :
    (s.callAnswer = .ok ∧
      s.callRst v = ((s.drawCall.emit (.rst v true)).setRst (Level.ofBool v)).advance) ∨
    ∃ e d, s.callAnswer = .err e d ∧
      s.callRst v = ((s.drawCall.emit (.rst v false)).setRst .unknown).raise .rstLineError e := by
  unfold State.callRst
  cases h : s.callAnswer with
  | ok => exact .inl ⟨rfl, rfl⟩
  | err e d => exact .inr ⟨e, d, rfl, rfl⟩

/-- A transfer has nothing left, or writes its next chunk, or ends the operation (42_panel_link.md
R156). -/
theorem State.callXfer_cases (s : State) (p : List Byte) :
    (p.length ≤ s.seq.off ∧ s.callXfer p = s.advance) ∨
    (s.seq.off < p.length ∧ s.callAnswer = .ok ∧
      s.callXfer p =
        (s.drawCall.emit (.wr (s.nextChunk p) none)).chunkSent p (s.nextChunk p).length) ∨
    ∃ e d, s.seq.off < p.length ∧ s.callAnswer = .err e d ∧
      s.callXfer p =
        (s.drawCall.emit (.wr (s.nextChunk p) (some (min d (s.nextChunk p).length)))).raise
          .busError e := by
  unfold State.callXfer
  by_cases h : p.length ≤ s.seq.off
  · exact .inl ⟨h, by simp [h]⟩
  · refine .inr ?_
    simp only [h, if_false]
    cases ha : s.callAnswer with
    | ok => exact .inl ⟨by omega, rfl, rfl⟩
    | err e d => exact .inr ⟨e, d, by omega, rfl, rfl⟩

/-- After a chunk the transfer goes on at its step or is over (10_state.md R31). -/
theorem State.chunkSent_cases (s : State) (p : List Byte) (n : Nat) :
    (s.seq.off + n < p.length ∧ s.chunkSent p n = s.setOff (s.seq.off + n)) ∨
    (p.length ≤ s.seq.off + n ∧ s.chunkSent p n = s.advance) := by
  unfold State.chunkSent
  by_cases h : s.seq.off + n < p.length
  · exact .inl ⟨h, by simp [h]⟩
  · exact .inr ⟨by omega, by simp [h]⟩

/-- A busy read ends the wait or stays (42_panel_link.md R160). -/
theorem State.callBusy_cases (s : State) :
    (s.busyAnswer = true ∧ s.callBusy = (s.drawBusy.emit (.busy true)).advance) ∨
    (s.busyAnswer = false ∧ s.callBusy = s.drawBusy.emit (.busy false)) := by
  unfold State.callBusy
  cases h : s.busyAnswer <;> simp

/-- No table entry touches the planes, the construction values, the mark or the host port. -/
theorem State.runEntry_sameStore (s : State) (e : Entry) : SameStore s (s.runEntry e) := by
  cases e with
  | dc v =>
    obtain ⟨-, h⟩ | ⟨_, _, -, h⟩ := s.callDc_cases v <;> simp only [State.runEntry, h] <;>
      constructor <;> simp
  | rst v =>
    obtain ⟨-, h⟩ | ⟨_, _, -, h⟩ := s.callRst_cases v <;> simp only [State.runEntry, h] <;>
      constructor <;> simp
  | delay n => constructor <;> simp [State.runEntry, State.callDelay]
  | xfer p =>
    obtain ⟨-, h⟩ | ⟨-, -, h⟩ | ⟨_, _, -, -, h⟩ := s.callXfer_cases p
    · simp only [State.runEntry, h]; constructor <;> simp
    · simp only [State.runEntry, h]
      obtain ⟨-, h'⟩ | ⟨-, h'⟩ := State.chunkSent_cases
        (s.drawCall.emit (.wr (s.nextChunk p) none)) p (s.nextChunk p).length <;>
      rw [h'] <;> constructor <;> simp
    · simp only [State.runEntry, h]; constructor <;> simp
  | busy =>
    obtain ⟨-, h⟩ | ⟨-, h⟩ := s.callBusy_cases <;> simp only [State.runEntry, h] <;>
      constructor <;> simp
  | fin l => constructor <;> simp [State.runEntry]

/-- The next chunk of a transfer that is not over is not empty, and is `CHUNK` bytes or what is
left (42_panel_link.md R156). -/
theorem State.nextChunk_length (s : State) (p : List Byte) :
    (s.nextChunk p).length = chunkLen s.chunk (p.length - s.seq.off) := by
  simp only [State.nextChunk, chunkLen, List.length_take, List.length_drop]
  split <;> omega

theorem chunkLen_pos {chunk : Word} {n : Nat} (h : 0 < n) : 0 < chunkLen chunk n := by
  unfold chunkLen
  split
  · exact h
  · next hc =>
    have : chunk.toNat ≠ 0 := fun e => hc (BitVec.eq_of_toNat_eq (by simpa using e))
    omega

theorem chunkLen_le (chunk : Word) (n : Nat) : chunkLen chunk n ≤ n := by
  unfold chunkLen
  split <;> omega

end Sys2Proof.Machine
end

