-- ==== Sys2Proof/Laws/Sequencer.lean ====
section
/-! SUPPORT. The step tables: their lengths, where the frames stand in them, and that they depend on
nothing but the planes and the parameters. -/

namespace Sys2Proof.Machine

open Sys2Proof

theorem State.planeBytes_congr {s t : State} (h : SameStore s t) (p : Plane) :
    t.planeBytes p = s.planeBytes p := by
  simp only [State.planeBytes, h.params]
  exact List.map_congr_left fun i _ => h.readByte p i

theorem State.frameEntries_congr {s t : State} (h : SameStore s t) (f : Frame) :
    t.frameEntries f = s.frameEntries f := by
  simp [State.frameEntries, State.payload, State.planeBytes_congr h, h.params]

/-- The step tables are fixed while an operation runs (20_memory.md R63). -/
theorem State.table_congr {s t : State} (h : SameStore s t) (o : Opr) : t.table o = s.table o := by
  cases o <;> simp [State.table, State.frameEntries_congr h]

@[simp] theorem State.planeBytes_length (s : State) (p : Plane) :
    (s.planeBytes p).length = s.params.n := by simp [State.planeBytes]

/-- How many entries each step table has (43_lifecycle.md R186, R190, R195, R199). -/
theorem State.table_length (s : State) (o : Opr) :
    (s.table o).length = match o with | .init => 25 | .update => 19 | .poweroff => 9 | .hwreset => 7 := by
  cases o <;> rfl

/-- The frame found at a step covers it. -/
theorem frameAt_covers {o : Opr} {k : Nat} {f : Frame} (h : frameAt o k = some f) :
    frameCovers f o k = true :=
  List.find?_some (p := fun f => frameCovers f o k) h

/-- The steps a frame covers. -/
theorem frameCovers_iff {f : Frame} {o : Opr} {k : Nat} :
    frameCovers f o k = true ↔
      frameEmitter f = o ∧ frameFirst f ≤ k ∧ k < frameFirst f + frameLen f := by
  simp [frameCovers]

/-- No step belongs to two frames, so the frame covering a step is the one found there. -/
theorem frameAt_of_covers {o : Opr} {k : Nat} {f : Frame} (h : frameCovers f o k = true) :
    frameAt o k = some f := by
  obtain ⟨rfl, h1, h2⟩ := frameCovers_iff.1 h
  cases f <;> simp only [frameFirst, frameLen, frameWaits] at h1 h2 <;>
    norm_num at h2 <;> interval_cases k <;> rfl

/-- The entries of a frame stand in its operation's table at the frame's steps (43_lifecycle.md R184). -/
theorem State.table_at_frame (s : State) {o : Opr} {k : Nat} {f : Frame}
    (h : frameCovers f o k = true) : (s.table o)[k]? = (s.frameEntries f)[k - frameFirst f]? := by
  obtain ⟨rfl, h1, h2⟩ := frameCovers_iff.1 h
  cases f <;> simp only [frameFirst, frameLen, frameWaits] at h1 h2 <;>
    norm_num at h2 <;> interval_cases k <;> rfl

theorem State.frameEntries_length (s : State) (f : Frame) :
    (s.frameEntries f).length = frameLen f := by
  cases f <;> rfl

/-- Where `SEQ` stands at a step of the frame, the frame's emission runs that table entry. -/
theorem State.frameEntry?_of_covers {s : State} {o : Opr} {k off : Nat} {f : Frame}
    (hs : s.seq = .run o k off) (h : frameCovers f o k = true) :
    s.frameEntry? f = (s.table o)[k]? := by
  simp [State.frameEntry?, hs, h, s.table_at_frame h]

end Sys2Proof.Machine
end

