-- ==== Sys2Proof/Laws/Step.lean ====
section
/-! SUPPORT. Everything a host request can do to an idle block, everything a step can do, and what a
frame's instruction does where `SEQ` stands at it. -/

namespace Sys2Proof.Machine

open Sys2Proof

/-- What a colour or framebuffer operation does to the framebuffer (41_framebuffer.md, 40_color.md):
nothing, a new framebuffer, a new rotation, or one pixel. -/
inductive FbEffect (s : State) : State → Prop where
  | same : FbEffect s s
  | fresh : FbEffect s s.newFramebuffer
  | rotated (r : Rotation) : FbEffect s (s.setRot r)
  | pixel (x y : Int) (c : Color) : FbEffect s (s.writePixel x y c)

/-- What a host request does to an idle block: it is refused, or a lifecycle operation is accepted, or
a colour or framebuffer operation completes. -/
inductive HostEffect (s : State) : State → Prop where
  | refused (why : RefuseReason) : HostEffect s (s.refuse why)
  | accepted (o : Opr) (h : o.legalIn s.life = true) : HostEffect s (s.accept o)
  | done (u : State) (h : FbEffect s u) (r0 r1 : Word) : HostEffect s (u.complete r0 r1)

/-- A legal lifecycle request of an idle block is accepted (43_lifecycle.md R183). -/
theorem State.request_legal {s : State} {o : Opr} (hs : s.seq = .idle)
    (h : o.legalIn s.life = true) : s.request o = s.accept o := by
  simp [State.request, State.whenIdle_idle hs, h]

/-- An illegal lifecycle request of an idle block is refused (43_lifecycle.md R182). -/
theorem State.request_illegal {s : State} {o : Opr} (hs : s.seq = .idle)
    (h : o.legalIn s.life = false) : s.request o = s.refuse .illegalInLife := by
  simp [State.request, State.whenIdle_idle hs, h]

theorem State.request_effect {s : State} (hs : s.seq = .idle) (o : Opr) :
    HostEffect s (s.request o) := by
  cases h : o.legalIn s.life with
  | true => exact s.request_legal hs h ▸ .accepted o h
  | false => exact s.request_illegal hs h ▸ .refused .illegalInLife

/-- A host request always answers a next state, and does one of the things of `HostEffect`. -/
theorem exec_host_effect {i : Instr} {s : State} (hi : i.IsHost) (hs : s.seq = .idle) :
    ∃ t, exec i s = .next t ∧ HostEffect s t := by
  cases i with
  | epdInit => exact ⟨_, rfl, State.request_effect hs .init⟩
  | epdUpdate => exact ⟨_, rfl, State.request_effect hs .update⟩
  | epdPoweroff => exact ⟨_, rfl, State.request_effect hs .poweroff⟩
  | epdHwreset => exact ⟨_, rfl, State.request_effect hs .hwreset⟩
  | fbNew =>
    refine ⟨_, rfl, ?_⟩
    simp only [State.whenIdle, hs]
    exact .done _ .fresh _ _
  | fbSetrot r =>
    refine ⟨_, rfl, ?_⟩
    simp only [State.whenIdle, hs]
    exact .done _ (.rotated r) _ _
  | fbGetrot =>
    refine ⟨_, rfl, ?_⟩
    simp only [State.whenIdle, hs]
    exact .done _ .same _ _
  | fbSize =>
    refine ⟨_, rfl, ?_⟩
    simp only [State.whenIdle, hs]
    exact .done _ .same _ _
  | fbPixel x y c =>
    refine ⟨_, rfl, ?_⟩
    simp only [State.whenIdle, hs]
    cases colorOfCode c with
    | none => exact .refused _
    | some col => exact .done _ (.pixel _ _ col) _ _
  | fbRdbyte k p =>
    refine ⟨_, rfl, ?_⟩
    simp only [State.whenIdle, hs]
    split
    · exact .done _ .same _ _
    · exact .refused _
  | clrTorgb c =>
    refine ⟨_, rfl, ?_⟩
    simp only [State.whenIdle, hs]
    cases colorOfCode c with
    | none => exact .refused _
    | some col => exact .done _ .same _ _
  | clrFromrgb v =>
    refine ⟨_, rfl, ?_⟩
    simp only [State.whenIdle, hs]
    exact .done _ .same _ _
  | clrFrommono m =>
    refine ⟨_, rfl, ?_⟩
    simp only [State.whenIdle, hs]
    exact .done _ .same _ _
  | softReset | inputTemp | activeTemp | panelSetting | bufBlack | bufRed | powerOn | refresh
  | powerOff => cases hi

theorem orReserved_ok {b : Bool} {i j : Instr} (h : orReserved b i = .ok j) :
    b = true ∧ i = j := by
  cases b <;> simp_all [orReserved]

/-- One row of the decoder: the request is this row's and its reserved bits are zero, or it is another
row's. -/
theorem decodeRow_ok {p : Prop} [Decidable p] {b : Bool} {i j : Instr}
    {rest : Except RefuseReason Instr} (h : (if p then orReserved b i else rest) = .ok j) :
    (p ∧ b = true ∧ i = j) ∨ (¬ p ∧ rest = .ok j) := by
  by_cases hp : p
  · rw [if_pos hp] at h
    exact .inl ⟨hp, orReserved_ok h⟩
  · rw [if_neg hp] at h
    exact .inr ⟨hp, h⟩

/-- A request that decodes spells a host operation, never a frame. -/
theorem decodeRequest_isHost {r : Request} {i : Instr} (h : decodeRequest r = .ok i) :
    i.IsHost := by
  unfold decodeRequest at h
  iterate 13
    rcases decodeRow_ok h with ⟨-, -, rfl⟩ | ⟨-, h⟩
    · rfl
  cases h

/-- The instruction of a frame emits that frame. -/
theorem exec_frame (f : Frame) (s : State) : exec f.instr s = s.emitFrame f := by
  cases f <;> rfl

/-- At one of its steps a frame's instruction runs that table entry. -/
theorem exec_frame_covers {f : Frame} {s : State} {o : Opr} {k off : Nat} {e : Entry}
    (hs : s.seq = .run o k off) (hc : frameCovers f o k = true) (he : (s.table o)[k]? = some e) :
    exec f.instr s = .next (s.runEntry e) := by
  rw [exec_frame, State.emitFrame, State.frameEntry?_of_covers hs hc, he]

/-- Everything a step of the block can do. -/
inductive StepCase (s : State) : State → Prop where
  /-- idle, and no request to take -/
  | waiting (hs : s.seq = .idle) (hr : s.requests = []) : StepCase s s
  /-- a request that spells no operation -/
  | rejected (hs : s.seq = .idle) (r : Request) (rest : List Request) (hr : s.requests = r :: rest)
      (why : RefuseReason) (hd : decodeRequest r = .error why) :
      StepCase s ((s.takeRequest rest).refuse why)
  /-- a request that spells an operation -/
  | taken (hs : s.seq = .idle) (r : Request) (rest : List Request) (hr : s.requests = r :: rest)
      (i : Instr) (hd : decodeRequest r = .ok i) (t : State)
      (he : exec i (s.takeRequest rest) = .next t)
      (ht : HostEffect (s.takeRequest rest) t) : StepCase s t
  /-- the entry of the running table -/
  | running (o : Opr) (k off : Nat) (hs : s.seq = .run o k off) (e : Entry)
      (he : (s.table o)[k]? = some e) : StepCase s (s.runEntry e)

/-- A step that answers a next state found no mark, and did one of these things. -/
theorem step_cases {s t : State} (h : step s = .next t) : s.refused = none ∧ StepCase s t := by
  unfold step State.fetch at h
  cases hm : s.refused with
  | some _ => simp [hm] at h
  | none =>
    refine ⟨rfl, ?_⟩
    cases hs : s.seq with
    | idle =>
      rw [hm, hs] at h
      simp only [State.fetchRequest] at h
      cases hr : s.requests with
      | nil =>
        simp only [hr, Host.Outcome.next.injEq] at h
        exact h ▸ .waiting hs hr
      | cons r rest =>
        simp only [hr] at h
        cases hd : decodeRequest r with
        | error why =>
          simp only [hd, Host.Outcome.next.injEq] at h
          exact h ▸ .rejected hs r rest hr why hd
        | ok i =>
          simp only [hd] at h
          obtain ⟨u, hu, eff⟩ := exec_host_effect (s := s.takeRequest rest)
            (decodeRequest_isHost hd) hs
          have : u = t := by rw [h] at hu; exact (Host.Outcome.next.inj hu).symm
          exact .taken hs r rest hr i hd t h (this ▸ eff)
    | run o k off =>
      rw [hm, hs] at h
      simp only [State.fetchStep] at h
      cases hf : frameAt o k with
      | some f =>
        simp only [hf] at h
        have hc := frameAt_covers hf
        cases he : (s.table o)[k]? with
        | some e =>
          rw [exec_frame_covers hs hc he, Host.Outcome.next.injEq] at h
          exact h ▸ .running o k off hs e he
        | none =>
          rw [exec_frame, State.emitFrame, State.frameEntry?_of_covers hs hc, he] at h
          cases h
      | none =>
        simp only [hf] at h
        cases he : (s.table o)[k]? with
        | some e =>
          simp only [he, Host.Outcome.next.injEq] at h
          exact h ▸ .running o k off hs e he
        | none => simp [he] at h

end Sys2Proof.Machine
end

