-- ==== Sys2Proof/Tests/Slice0.lean ====
section
/-! SUPPORT. Tests: ill-formed terms, words written out from 30_encoding.md, vectors of
95_test_vectors.md (V numbers in the docstrings), and a witness for the hypotheses of each
statement. -/

namespace Sys2Proof.Tests

open Sys2Proof Sys2Proof.Machine

/-! ### Small states -/

/-- `W = 16`, `H = 2`, the geometry of 95_test_vectors.md, with the default `OPC` and classifier. -/
def p16 : Params :=
  { w := 16, h := 2, maxXfer := none, opc := OpcMap.standard, classifier := .standard }

/-- The same block with a transfer limit of 3 bytes. -/
def p16max3 : Params := { p16 with maxXfer := some 3 }

/-- The reset state of the vectors, with the requests the host presents. -/
def idle (rs : List Request) : State := started p16 0 rs [] []

/-- A collaborator's error value. -/
def e0 : CollabError := { tag := 0, isTag := .inl rfl }

/-- An operation running at step `k` with `off` bytes sent, `CHUNK = 3`, the black plane of V31, one
red pixel, both lines high, and one coming answer of each kind. -/
def running (o : Opr) (k off : Nat) (a : CallAnswer) (busy : Bool) : State :=
  { started p16 3 [] [a] [busy] with
    black := [(0, 0x80), (2, 0x01), (3, 0x01)], red := [(1, 0x40)], life := o.lifeWhile
    dcOut := .high, rstOut := .high, seq := .run o k off }

/-- What a request needs `OP`, `A`, `B` and `C` for. -/
def req (op : Byte) (a b : Word) (c : U24) : Request := { op := op, a := a, b := b, c := c }

/-- The next state, if the outcome is one. -/
def next? : Out → Option State
  | .next t => some t
  | .fault _ => none
  | .refused _ => none

/-- The refusal, if the outcome is one. -/
def refusal? : Out → Option Refusal
  | .next _ => none
  | .fault _ => none
  | .refused r => some r

/-- Both planes after an outcome. -/
def planesAfter (o : Out) : Option (List Byte × List Byte) :=
  (next? o).map fun t => (t.planeBytes .black, t.planeBytes .red)

/-- The response after an outcome. -/
def responseAfter (o : Out) : Option (Option Response) := (next? o).map fun t => t.response

/-- The mark after an outcome. -/
def markAfter (o : Out) : Option (Option RefuseReason) := (next? o).map fun t => t.refused

/-- The transcript after an outcome. -/
def transcriptAfter (o : Out) : Option (List Event) := (next? o).map fun t => t.transcript

/-- `SEQ` after an outcome. -/
def seqAfter (o : Out) : Option Seq := (next? o).map fun t => t.seq

/-- Rotation `r`, zero planes. -/
def rotated (r : Rotation) : State := { idle [] with rot := r }

/-! ### Well-formedness -/

theorem test_wellFormed_refuses_pixel_code3 :
    (Instr.fbPixel 0 0 3).wellFormed = false ∧ (Instr.fbPixel 0 0 2).wellFormed = true := by decide

theorem test_wellFormed_refuses_torgb_code3 :
    (Instr.clrTorgb 3).wellFormed = false ∧ (Instr.clrTorgb 2).wellFormed = true := by decide

/-! ### Decoding: one word for each instruction, from 30_encoding.md R71, R77, R83, R89 -/

/-- OP 0x01 to 0x04, no operands. -/
theorem test_decode_epd :
    decodeTableWord 96 0x01_00000000_00000000_000000 = some .epdInit ∧
    decodeTableWord 96 0x02_00000000_00000000_000000 = some .epdUpdate ∧
    decodeTableWord 96 0x03_00000000_00000000_000000 = some .epdPoweroff ∧
    decodeTableWord 96 0x04_00000000_00000000_000000 = some .epdHwreset := by decide

/-- OP 0x10 to 0x15; rotation in C[1:0], colour in C[1:0], plane in C[0], coordinates in A and B. -/
theorem test_decode_fb :
    decodeTableWord 96 0x10_00000000_00000000_000000 = some .fbNew ∧
    decodeTableWord 96 0x11_00000000_00000000_000003 = some (.fbSetrot .deg270) ∧
    decodeTableWord 96 0x12_00000000_00000000_000000 = some .fbGetrot ∧
    decodeTableWord 96 0x13_00000000_00000000_000000 = some .fbSize ∧
    decodeTableWord 96 0x14_7FFFFFFF_80000000_000001 =
      some (.fbPixel 0x7FFFFFFF 0x80000000 1) ∧
    decodeTableWord 96 0x15_00000002_00000000_000000 = some (.fbRdbyte 2 .black) := by decide

/-- OP 0x20 to 0x22; colour in C[1:0], RGB24 in C, mono bit in C[0]. -/
theorem test_decode_clr :
    decodeTableWord 96 0x20_00000000_00000000_000002 = some (.clrTorgb 2) ∧
    decodeTableWord 96 0x21_00000000_00000000_FF8080 = some (.clrFromrgb 0xFF8080) ∧
    decodeTableWord 96 0x22_00000000_00000000_000000 = some (.clrFrommono .off) := by decide

/-- The frames, opcode byte then payload, the first byte in the low bits. -/
theorem test_decode_frames :
    decodeTableWord 16 0x0E_00 = some .softReset ∧ decodeTableWord 16 0x19_E5 = some .inputTemp ∧
    decodeTableWord 16 0x02_E0 = some .activeTemp ∧
    decodeTableWord 24 0x8D_CF_00 = some .panelSetting ∧
    decodeTableWord 40 0x01_01_00_80_10 = some .bufBlack ∧
    decodeTableWord 40 0x00_00_40_00_13 = some .bufRed ∧
    decodeTableWord 16 0x00_04 = some .powerOn ∧ decodeTableWord 16 0x00_12 = some .refresh ∧
    decodeTableWord 16 0x00_02 = some .powerOff := by decide

/-- V24, V40 and section 2.1: reserved bits and unassigned `OP`. -/
theorem test_decode_refusals :
    decodeRequest (req 0x20 0 0 0x000004) = .error .reservedOperand ∧
    decodeRequest (req 0x22 0 0 0x000002) = .error .reservedOperand ∧
    decodeRequest (req 0x21 1 0 0) = .error .reservedOperand ∧
    decodeRequest (req 0x14 0 0 0x000005) = .error .reservedOperand ∧
    decodeRequest (req 0x11 0 0 0x000004) = .error .reservedOperand ∧
    decodeRequest (req 0x15 0 1 0) = .error .reservedOperand ∧
    decodeRequest (req 0x10 0 0 1) = .error .reservedOperand ∧
    decodeRequest (req 0x01 1 0 0) = .error .reservedOperand ∧
    decodeRequest (req 0x04 0 0 1) = .error .reservedOperand ∧
    decodeRequest (req 0x16 0 0 0) = .error .unassignedOp := by decide

/-- 30_encoding.md R83, R85: a frame's payload is exactly the constant; R86: no other opcode. -/
theorem test_decode_frame_refusals :
    decodeFrame OpcMap.standard [] = .error .empty ∧
    decodeFrame OpcMap.standard [0x00, 0xCF] = .error .wrongPayload ∧
    decodeFrame OpcMap.standard [0xE5, 0x1A] = .error .wrongPayload ∧
    decodeFrame OpcMap.standard [0x07, 0xA5] = .error .unknownOpcode := by decide

/-! ### Colour unit -/

/-- V1. -/
theorem test_torgb_table :
    responseAfter (exec (.clrTorgb 0) (idle [])) = some (okResponse 0x00FFFFFF 0) ∧
    responseAfter (exec (.clrTorgb 1) (idle [])) = some (okResponse 0 0) ∧
    responseAfter (exec (.clrTorgb 2) (idle [])) = some (okResponse 0x00FF0000 0) := by decide

/-- Section 2.1: `(20, 0, 0, 000003)` is refused. -/
theorem test_torgb_code3_refused :
    markAfter (exec (.clrTorgb 3) (idle [])) = some (some .reservedColor) := by decide

/-- Section 2.1, the rows at the thresholds. -/
theorem test_fromrgb_thresholds :
    classifyStd 0x808080 = .white ∧ classifyStd 0x7F7F7F = .black ∧
    classifyStd 0xFF8080 = .white ∧ classifyStd 0xFF7F7F = .red ∧
    classifyStd 0x800000 = .red ∧ classifyStd 0x7F0000 = .black ∧
    classifyStd 0x00FF00 = .black ∧ classifyStd 0xFFFF00 = .white ∧
    classifyStd 0x0000FF = .black ∧ classifyStd 0xFF00FF = .white := by decide

/-- V2. -/
theorem test_fromrgb_round_trip :
    responseAfter (exec (.clrFromrgb 0xFFFFFF) (idle [])) = some (okResponse 0 0) ∧
    responseAfter (exec (.clrFromrgb 0x000000) (idle [])) = some (okResponse 1 0) ∧
    responseAfter (exec (.clrFromrgb 0xFF0000) (idle [])) = some (okResponse 2 0) := by decide

/-- V1. -/
theorem test_frommono_table :
    responseAfter (exec (.clrFrommono .on) (idle [])) = some (okResponse 1 0) ∧
    responseAfter (exec (.clrFrommono .off) (idle [])) = some (okResponse 0 0) := by decide

/-! ### Framebuffer -/

/-- V12, from zero planes. -/
theorem test_pixel_rot0 :
    planesAfter (exec (.fbPixel 0 0 1) (idle [])) = some ([0x80, 0, 0, 0], [0, 0, 0, 0]) ∧
    planesAfter (exec (.fbPixel 15 1 2) (idle [])) = some ([0, 0, 0, 0], [0, 0, 0, 0x01]) ∧
    planesAfter (exec (.fbPixel 8 0 1) (idle [])) = some ([0, 0x80, 0, 0], [0, 0, 0, 0]) ∧
    planesAfter (exec (.fbPixel 7 1 1) (idle [])) = some ([0, 0, 0x01, 0], [0, 0, 0, 0]) := by
  decide

/-- V14, V16, V18: the cells of the corrected rotation rows. -/
theorem test_pixel_rotated :
    (rotated .deg90).pixelCell 0 0 = some (1, 0x01) ∧
    (rotated .deg90).pixelCell 1 15 = some (2, 0x80) ∧
    (rotated .deg90).pixelCell 0 8 = some (0, 0x01) ∧
    (rotated .deg180).pixelCell 0 0 = some (3, 0x01) ∧
    (rotated .deg180).pixelCell 15 1 = some (0, 0x80) ∧
    (rotated .deg270).pixelCell 0 0 = some (2, 0x80) ∧
    (rotated .deg270).pixelCell 1 15 = some (1, 0x01) ∧
    (rotated .deg270).pixelCell 0 9 = some (3, 0x40) := by decide

/-- V13, V15, V17, V19, V20: clipped coordinates. -/
theorem test_pixel_clipped :
    (rotated .deg0).pixelCell 16 0 = none ∧ (rotated .deg0).pixelCell (coord 0xFFFFFFFF) 0 = none ∧
    (rotated .deg0).pixelCell (coord 0x80000000) (coord 0x80000000) = none ∧
    (rotated .deg90).pixelCell 2 0 = none ∧ (rotated .deg90).pixelCell 0 (-1) = none ∧
    (rotated .deg180).pixelCell (coord 0x7FFFFFFF) 0 = none ∧
    (rotated .deg180).pixelCell 0 2 = none ∧ (rotated .deg270).pixelCell 0 16 = none ∧
    (rotated .deg270).pixelCell (-1) 0 = none := by decide

/-- V23: the other bits of both bytes are kept. -/
theorem test_pixel_keeps_neighbours :
    planesAfter (exec (.fbPixel 1 0 2) { idle [] with black := [(0, 0xFF)] }) =
      some ([0xBF, 0, 0, 0], [0x40, 0, 0, 0]) := by decide

/-- 41_framebuffer.md R121. -/
theorem test_new_zeroes :
    (next? (exec .fbNew { rotated .deg180 with red := [(3, 0x80)] })).map
        (fun t => (t.red, t.rot)) = some ([], .deg0) := by decide

/-- V25. -/
theorem test_rotation_set_and_read :
    (next? (exec (.fbSetrot .deg270) (idle []))).map (fun t => t.rot) = some .deg270 ∧
    responseAfter (exec .fbGetrot (rotated .deg270)) = some (okResponse 3 0) := by decide

/-- V3. -/
theorem test_size :
    responseAfter (exec .fbSize (rotated .deg180)) = some (okResponse 16 2) ∧
    responseAfter (exec .fbSize (rotated .deg270)) = some (okResponse 2 16) := by decide

/-- V24, V25: the last index, and the first one refused. -/
theorem test_rdbyte_bounds :
    responseAfter (exec (.fbRdbyte 3 .red) { idle [] with red := [(3, 0x01)] }) =
      some (okResponse 1 0) ∧
    markAfter (exec (.fbRdbyte 4 .black) (idle [])) = some (some .indexOutOfRange) := by decide

/-! ### Lifecycle and panel link -/

/-- V40: what is refused in each `LIFE`; `EPD.HWRESET` never is. -/
theorem test_lifecycle_refusals :
    markAfter (exec .epdUpdate (idle [])) = some (some .illegalInLife) ∧
    markAfter (exec .epdPoweroff (idle [])) = some (some .illegalInLife) ∧
    markAfter (exec .epdInit { idle [] with life := .active }) = some (some .illegalInLife) ∧
    seqAfter (exec .epdHwreset { idle [] with life := .active }) = some (.run .hwreset 0 0) := by
  decide

/-- V29, V31, V32: accepted in the other `LIFE`. -/
theorem test_lifecycle_accepted :
    seqAfter (exec .epdInit (idle [])) = some (.run .init 0 0) ∧
    seqAfter (exec .epdUpdate { idle [] with life := .active }) = some (.run .update 0 0) ∧
    seqAfter (exec .epdPoweroff { idle [] with life := .active }) = some (.run .poweroff 0 0) := by
  decide

/-- V34: `EPD.INIT` fails at step 0. -/
theorem test_init_fails_at_step0 :
    (next? (step (running .init 0 0 (.err e0 0) true))).map
        (fun t => (t.transcript, t.response, t.dcOut, t.life)) =
      some ([.dc true false], some { st := .dcLineError, r0 := 0, r1 := 0, err := some e0 },
        .unknown, .inactive) := by decide

/-- V39: `EPD.HWRESET` fails at step 2. -/
theorem test_hwreset_fails_at_step2 :
    (next? (step (running .hwreset 2 0 (.err e0 0) true))).map
        (fun t => (t.transcript, t.response, t.rstOut, t.seq)) =
      some ([.rst false false], some { st := .rstLineError, r0 := 0, r1 := 0, err := some e0 },
        .unknown, .idle) := by decide

/-- V5, V31: the black plane of four bytes goes as three and one. -/
theorem test_buf_black_chunks :
    transcriptAfter (exec .bufBlack (running .update 3 0 .ok true)) =
      some [.wr [0x80, 0x00, 0x01] none] ∧
    seqAfter (exec .bufBlack (running .update 3 0 .ok true)) = some (.run .update 3 3) ∧
    transcriptAfter (exec .bufBlack (running .update 3 3 .ok true)) = some [.wr [0x01] none] ∧
    seqAfter (exec .bufBlack (running .update 3 3 .ok true)) = some (.run .update 4 0) := by decide

/-- V37: the red plane's first chunk fails; `LIFE` stays Active. -/
theorem test_buf_red_fails :
    (next? (exec .bufRed (running .update 7 0 (.err e0 1) true))).map
        (fun t => (t.transcript, t.response, t.life, t.seq)) =
      some ([.wr [0x00, 0x40, 0x00] (some 1)],
        some { st := .busError, r0 := 0, r1 := 0, err := some e0 }, .active, .idle) := by decide

/-- V4: the opcode and payload of each frame of `EPD.INIT`, at its step. -/
theorem test_init_frames :
    transcriptAfter (exec .softReset (running .init 8 0 .ok true)) = some [.wr [0x00] none] ∧
    transcriptAfter (exec .softReset (running .init 10 0 .ok true)) = some [.wr [0x0E] none] ∧
    transcriptAfter (exec .inputTemp (running .init 13 0 .ok true)) = some [.wr [0xE5] none] ∧
    transcriptAfter (exec .inputTemp (running .init 15 0 .ok true)) = some [.wr [0x19] none] ∧
    transcriptAfter (exec .activeTemp (running .init 17 0 .ok true)) = some [.wr [0xE0] none] ∧
    transcriptAfter (exec .activeTemp (running .init 19 0 .ok true)) = some [.wr [0x02] none] ∧
    transcriptAfter (exec .panelSetting (running .init 21 0 .ok true)) = some [.wr [0x00] none] ∧
    transcriptAfter (exec .panelSetting (running .init 23 0 .ok true)) =
      some [.wr [0xCF, 0x8D] none] := by decide

/-- V31, V32: the opcodes of the five other frames, under the default `OPC`. -/
theorem test_other_frames :
    transcriptAfter (exec .bufBlack (running .update 1 0 .ok true)) = some [.wr [0x10] none] ∧
    transcriptAfter (exec .bufRed (running .update 5 0 .ok true)) = some [.wr [0x13] none] ∧
    transcriptAfter (exec .powerOn (running .update 9 0 .ok true)) = some [.wr [0x04] none] ∧
    transcriptAfter (exec .refresh (running .update 14 0 .ok true)) = some [.wr [0x12] none] ∧
    transcriptAfter (exec .powerOff (running .poweroff 1 0 .ok true)) =
      some [.wr [0x02] none] := by decide

/-- V27: a level of 0 stays at the step, 1 goes on. -/
theorem test_busy_wait :
    seqAfter (exec .powerOn (running .update 12 0 .ok false)) = some (.run .update 12 0) ∧
    seqAfter (exec .powerOn (running .update 12 0 .ok true)) = some (.run .update 13 0) := by decide

/-- 43_lifecycle.md R195, R184: the discharge delay, and `END(Inactive)`. -/
theorem test_poweroff_tail :
    transcriptAfter (step (running .poweroff 6 0 .ok true)) = some [.delay 150] ∧
    (next? (step (running .poweroff 8 0 .ok true))).map (fun t => (t.life, t.seq, t.response)) =
      some (.inactive, .idle, okResponse 0 0) := by decide

/-- A frame outside its steps is refused by name (30_encoding.md R86; log 8). -/
theorem test_frame_elsewhere :
    refusal? (exec .refresh (running .update 12 0 .ok true)) = some .frameNotAtStep ∧
    refusal? (exec .softReset (idle [])) = some .frameNotAtStep := by decide

/-- 30_encoding.md R90: after a refusal the run is over. -/
theorem test_run_over :
    refusal? (step { idle [] with refused := some .unassignedOp }) = some .runOver := by decide

/-- A table word is what the next step runs, a request and a frame. -/
theorem test_withFetchWord :
    seqAfter (step ((idle []).withFetchWord 96 0x040000000000000000000000)) =
      some (.run .hwreset 0 0) ∧
    seqAfter (step ({ idle [] with callAnswers := [.ok] }.withFetchWord 8 0x12)) =
      some (.run .update 14 0) := by decide

/-! ### Witnesses: for each statement with hypotheses, a state and operands that meet them -/

/-- The request of `fb.pixel 15, 1, red`. -/
def pixelReq : Request := req 0x14 15 1 2

theorem witness_DecodeOfEncodeIsIdentity :
    OpcMap.standard.Legal ∧ [(0x80 : Byte)] ≠ [] ∧
      decode OpcMap.standard (encode OpcMap.standard [0x80] [0x00] (.fbPixel 0xFFFFFFFF 0x80000000 3)) =
        some (.fbPixel 0xFFFFFFFF 0x80000000 3) := by decide

theorem witness_EncodeOfDecodeIsIdentity :
    decode OpcMap.standard (.request pixelReq) = some (.fbPixel 15 1 2) ∧
      decode OpcMap.standard (.frame [0x13, 0x00]) = some .bufRed := by decide

theorem witness_DecoderFollowsOpcodeTable :
    decodeRequest pixelReq = .ok (.fbPixel 15 1 2) ∧
      decodeRequest (req 0x16 0 0 0) = .error .unassignedOp ∧
      decodeRequest (req 0x22 0 0 2) = .error .reservedOperand := by decide

theorem witness_IdleStepRunsDecodedRequest :
    (idle [pixelReq]).refused = none ∧ (idle [pixelReq]).seq = .idle ∧
      (idle [pixelReq]).requests = pixelReq :: [] ∧
      decodeRequest pixelReq = .ok (.fbPixel 15 1 2) := by decide

theorem witness_IdleStepRefusesUndecodable :
    (idle [req 0x16 0 0 0]).refused = none ∧ (idle [req 0x16 0 0 0]).seq = .idle ∧
      (idle [req 0x16 0 0 0]).requests = req 0x16 0 0 0 :: [] ∧
      decodeRequest (req 0x16 0 0 0) = .error .unassignedOp := by decide

theorem witness_RunningStepRunsFrame :
    (running .update 3 3 .ok true).refused = none ∧
      (running .update 3 3 .ok true).seq = .run .update 3 3 ∧
      frameAt .update 3 = some .bufBlack ∧ frameAt .init 24 = none := by decide

theorem witness_RunningStepInterpretsTable :
    (running .init 24 0 .ok true).refused = none ∧
      (running .init 24 0 .ok true).seq = .run .init 24 0 ∧
      ((running .init 24 0 .ok true).table .init)[24]? = some (.fin (some .active)) ∧
      ((running .update 0 0 .ok true).table .update)[0]? = some (.dc false) := by decide

theorem witness_MarkedOrUnaskedStep :
    { idle [] with refused := some .illegalInLife }.refused ≠ none ∧
      (idle []).refused = none ∧ (idle []).seq = .idle ∧ (idle []).requests = [] := by decide

/-- Legal values at a bound of each kind, and one value beyond each. -/
theorem witness_ConstructionRejectsIllegal :
    (State.construct? p16max3 3).isSome = true ∧
      (State.construct? { p16 with w := 8, h := 2147483647 } 0).isSome = true ∧
      (State.construct? { p16 with maxXfer := none } 0xFFFFFFFF).isSome = true ∧
      (State.construct? p16max3 4).isSome = false ∧
      (State.construct? { p16 with maxXfer := some 0 } 0).isSome = false ∧
      (State.construct? { p16 with w := 12 } 0).isSome = false ∧
      (State.construct? { p16 with w := 0 } 0).isSome = false ∧
      (State.construct? { p16 with h := 0 } 0).isSome = false ∧
      (State.construct? { p16 with w := 8, h := 2147483648 } 0).isSome = false ∧
      (State.construct? { p16 with w := 2147483648 } 0).isSome = false ∧
      (State.construct? { p16 with w := 24, h := 1431655766 } 0).isSome = false ∧
      (State.construct? { p16 with opc := { OpcMap.standard with bufRed := 0x10 } } 0).isSome = false := by
  decide

theorem witness_ResetMeetsInvariant : p16.Legal ∧ p16.ChunkLegal 0xFFFFFFFF := by decide

/-- The planes of `running` have no common bit. -/
theorem running_exclusive (o : Opr) (k off : Nat) (a : CallAnswer) (b : Bool) :
    PlanesExclusive (running o k off a b) := by
  intro i
  change Mem.read [(0, 0x80), (2, 0x01), (3, 0x01)] i &&& Mem.read [(1, 0x40)] i = 0x00
  simp only [Mem.read]
  split_ifs <;> decide

/-- An operation in the middle of a plane meets the invariant. -/
theorem running_inv : Inv (running .update 3 3 .ok true) where
  legal := by decide
  chunkLegal := by decide
  memOk := by unfold MemOk; decide
  exclusive := running_exclusive _ _ _ _ _
  seqOk := by
    intro o k off h
    cases h
    exact ⟨rfl, .xfer [0x80, 0x00, 0x01, 0x01], by decide, by decide⟩
  linesOk := by
    intro o k off h
    cases h
    exact ⟨by decide, by decide⟩
  portOk := ⟨fun _ _ _ _ => rfl, by intro r h; cases h⟩
  refusedIdle := by intro h; exact absurd rfl h

/-- The invariant does not speak of the environment's answers. -/
theorem running_inv_err : Inv (running .update 3 3 (.err e0 1) true) :=
  ⟨running_inv.legal, running_inv.chunkLegal, running_inv.memOk, running_inv.exclusive,
    running_inv.seqOk, running_inv.linesOk, running_inv.portOk, running_inv.refusedIdle⟩

/-- The step of an opcode byte, with DC low and a call that fails, meets it too. -/
theorem opcode_inv : Inv { running .update 1 0 (.err e0 0) true with dcOut := .low } where
  legal := by decide
  chunkLegal := by decide
  memOk := by unfold MemOk; decide
  exclusive := running_exclusive .update 1 0 (.err e0 0) true
  seqOk := by
    intro o k off h
    cases h
    exact ⟨rfl, .xfer [0x10], by decide, by decide⟩
  linesOk := by
    intro o k off h
    cases h
    exact ⟨by decide, by decide⟩
  portOk := ⟨fun _ _ _ _ => rfl, by intro r h; cases h⟩
  refusedIdle := by intro h; exact absurd rfl h

theorem witness_StepKeepsInvariant :
    ∃ t, Inv (running .update 3 3 .ok true) ∧ step (running .update 3 3 .ok true) = .next t :=
  ⟨_, running_inv, rfl⟩

theorem witness_StepKeepsInvariant_error :
    ∃ t, Inv (running .update 3 3 (.err e0 1) true) ∧
      step (running .update 3 3 (.err e0 1) true) = .next t :=
  ⟨_, running_inv_err, rfl⟩

theorem witness_BlockNeverStops :
    Inv (running .update 3 3 .ok true) ∧ (running .update 3 3 .ok true).refused = none :=
  ⟨running_inv, rfl⟩

theorem witness_ReachablePlanesExclusive :
    ∃ t, p16.Legal ∧ p16.ChunkLegal 3 ∧
      runSteps 1 (started p16 3 [pixelReq] [] []) = .next t ∧ 3 < t.params.n ∧
      t.readByte .red 3 = 0x01 :=
  ⟨_, by decide, by decide, rfl, by decide, by decide⟩

theorem witness_LifeChangesOnlyAtEnd :
    (∃ t, step (running .init 24 0 .ok true) = .next t ∧
        t.life ≠ (running .init 24 0 .ok true).life) ∧
      ∃ t, step (running .poweroff 8 0 .ok true) = .next t ∧
        t.life ≠ (running .poweroff 8 0 .ok true).life :=
  ⟨⟨_, rfl, by decide⟩, ⟨_, rfl, by decide⟩⟩

theorem witness_ConstructionValuesNeverChange :
    ∃ t, step (idle [req 0x10 0 0 0]) = .next t := ⟨_, rfl⟩

theorem witness_RunningStepKeepsStore :
    ∃ t, (running .update 12 0 .ok false).seq = .run .update 12 0 ∧
      step (running .update 12 0 .ok false) = .next t := ⟨_, rfl, rfl⟩

theorem witness_OnlyFbRequestsWriteStore :
    (∃ t, step (idle [pixelReq]) = .next t ∧ t.red ≠ (idle [pixelReq]).red) ∧
      ∃ t, step (idle [req 0x11 0 0 2]) = .next t ∧ t.rot ≠ (idle [req 0x11 0 0 2]).rot :=
  ⟨⟨_, rfl, by decide⟩, ⟨_, rfl, by decide⟩⟩

theorem witness_LinesChangeOnlyAtTheirEntries :
    (∃ t, step (running .poweroff 5 0 .ok true) = .next t ∧ t.dcOut ≠ .high ∧
        (running .poweroff 5 0 .ok true).dcOut = .high) ∧
      ∃ t, step (running .poweroff 7 0 (.err e0 0) true) = .next t ∧ t.rstOut ≠ .high ∧
        (running .poweroff 7 0 (.err e0 0) true).rstOut = .high :=
  ⟨⟨_, rfl, by decide, rfl⟩, ⟨_, rfl, by decide, rfl⟩⟩

theorem witness_SequencerNeverMovesBackward :
    (∃ t, step (running .update 3 0 .ok true) = .next t ∧ t.seq = .run .update 3 3) ∧
      (∃ t, step (running .update 3 3 .ok true) = .next t ∧ t.seq = .run .update 4 0) ∧
      ∃ t, step (running .update 3 0 (.err e0 0) true) = .next t ∧ t.seq = .idle :=
  ⟨⟨_, rfl, by decide⟩, ⟨_, rfl, by decide⟩, ⟨_, rfl, by decide⟩⟩

/-- A step that is not at `END`, and one that is. -/
theorem witness_OneEventPerPortCall :
    (∃ t, SeqOk (running .update 3 3 .ok true) ∧
      (running .update 3 3 .ok true).seq = .run .update 3 3 ∧
      step (running .update 3 3 .ok true) = .next t ∧
      ((running .update 3 3 .ok true).table .update)[3]? = some (.xfer [0x80, 0x00, 0x01, 0x01])) ∧
    ∃ t, SeqOk (running .hwreset 6 0 .ok true) ∧
      (running .hwreset 6 0 .ok true).seq = .run .hwreset 6 0 ∧
      step (running .hwreset 6 0 .ok true) = .next t ∧
      ((running .hwreset 6 0 .ok true).table .hwreset)[6]? = some (.fin none) := by
  refine ⟨⟨_, running_inv.seqOk, rfl, rfl, by decide⟩, ⟨_, ?_, rfl, rfl, by decide⟩⟩
  intro o k off h
  cases h
  exact ⟨rfl, .fin none, by decide, by decide⟩

theorem witness_WritesAreFramedByDc :
    ∃ t, Inv (running .update 3 3 .ok true) ∧ step (running .update 3 3 .ok true) = .next t ∧
      t.transcript = (running .update 3 3 .ok true).transcript ++ [.wr [0x01] none] :=
  ⟨_, running_inv, rfl, by decide⟩

theorem witness_WritesAreFramedByDc_opcode :
    ∃ t, Inv { running .update 1 0 (.err e0 0) true with dcOut := .low } ∧
      step { running .update 1 0 (.err e0 0) true with dcOut := .low } = .next t ∧
      t.transcript = [] ++ [.wr [0x10] (some 0)] :=
  ⟨_, opcode_inv, rfl, by decide⟩

theorem witness_ClrTorgbAnswersTable : (idle []).seq = .idle := by decide

theorem witness_ClrFromrgbClassifies :
    (idle []).seq = .idle ∧ (idle []).params.classifier = .standard ∧
      responseAfter (exec (.clrFromrgb 0xFF7F7F) (idle [])) = some (okResponse 2 0) ∧
      responseAfter (exec (.clrFromrgb 0x808080) (idle [])) = some (okResponse 0 0) ∧
      responseAfter (exec (.clrFromrgb 0x7F7F7F) (idle [])) = some (okResponse 1 0) := by decide

theorem witness_ClrFromrgbAnswersColour :
    { idle [] with params := { p16 with classifier := .lawful } }.seq = .idle ∧
      { idle [] with params := { p16 with classifier := .lawful } }.params.classifier = .lawful := by
  decide

theorem witness_ClrFrommonoAnswersColour : (idle [pixelReq]).seq = .idle := by decide

theorem witness_ColourRoundTrip :
    (idle []).seq = .idle ∧ (2 : BitVec 2) ≠ 3 ∧ (idle []).params.classifier = .standard := by decide

theorem witness_FbNewZeroesPlanes :
    { idle [] with black := [(3, 0xFF)] }.seq = .idle ∧
      { idle [] with black := [(3, 0xFF)] }.readByte .black 3 = 0xFF := by decide

theorem witness_FbRotationWrittenAndRead :
    (rotated .deg90).seq = .idle ∧ responseAfter (exec .fbGetrot (rotated .deg90)) =
      some (okResponse 1 0) := by decide

theorem witness_FbSizeAnswersLogicalSize :
    (rotated .deg90).seq = .idle ∧ (rotated .deg90).params.Legal ∧
      ((rotated .deg90).rot = .deg90 ∨ (rotated .deg90).rot = .deg270) ∧
      ((rotated .deg0).rot = .deg0 ∨ (rotated .deg0).rot = .deg180) := by decide

/-- The two corners of the logical surface. -/
theorem witness_FbPixelWritesOneBit :
    (rotated .deg90).seq = .idle ∧
      (Mem.wf (rotated .deg90).black = true ∧ Mem.wf (rotated .deg90).red = true ∧
        Mem.below (rotated .deg90).black (rotated .deg90).params.n = true ∧
        Mem.below (rotated .deg90).red (rotated .deg90).params.n = true) ∧
      (rotated .deg90).params.Legal ∧ (2 : BitVec 2) ≠ 3 ∧
      (0 ≤ coord 1 ∧ coord 1 < (logicalSize 16 2 .deg90).1) ∧
      (0 ≤ coord 15 ∧ coord 15 < (logicalSize 16 2 .deg90).2) ∧
      (0 ≤ coord 0 ∧ coord 0 < (logicalSize 16 2 .deg90).1) := by decide

theorem witness_FbPixelClipsOffSurface :
    (rotated .deg90).seq = .idle ∧ (1 : BitVec 2) ≠ 3 ∧
      ¬ coord 2 < (logicalSize 16 2 .deg90).1 ∧ ¬ coord 16 < (logicalSize 16 2 .deg90).2 ∧
      ¬ 0 ≤ coord 0xFFFFFFFF ∧
      ¬ (0 ≤ coord 2 ∧ coord 2 < (logicalSize 16 2 .deg90).1 ∧
        0 ≤ coord 0 ∧ coord 0 < (logicalSize 16 2 .deg90).2) := by decide

theorem witness_RotationMapIsBijective :
    phys 16 2 .deg90 1 15 = (0, 1) ∧ OnPanel 16 2 (phys 16 2 .deg90 1 15) ∧
      ¬ OnPanel 16 2 (phys 16 2 .deg90 2 0) := by decide

theorem witness_PixelAddressIsBijective :
    16 % 8 = 0 ∧ byteIndex 16 15 1 = 3 ∧ byteIndex 16 8 0 = 1 ∧ bitMask 15 = 0x01 ∧
      bitMask 8 = 0x80 ∧ bitMask 3 = 0x10 := by decide

theorem witness_PixelLastWriteWins :
    MemOk (idle []) ∧ (idle []).params.Legal ∧ ((0 : Int), (0 : Int)) ≠ (1, 0) := by
  refine ⟨?_, by decide, by decide⟩
  unfold MemOk
  decide

/-- Each colour code; coordinates at the two ends of `s32` (V13, V20). -/
theorem witness_FbPixelIsIdempotent :
    (idle []).seq = .idle ∧ MemOk (idle []) ∧ (idle []).params.Legal ∧
      (∀ q ∈ [((0 : BitVec 2), Color.white), (1, Color.black), (2, Color.red)],
        colorOfCode q.1 = some q.2) ∧
      coord 0x80000000 = -2147483648 ∧ coord 0x7FFFFFFF = 2147483647 ∧ coord 0xFFFFFFFF = -1 :=
  ⟨rfl, witness_PixelLastWriteWins.1, by decide, by decide, by decide, by decide, by decide⟩

theorem witness_FbRdbyteAnswersByte :
    (idle []).seq = .idle ∧ (3 : Word).toNat < (idle []).params.n := by decide

theorem witness_RefusedRequestsOnlyMark :
    (idle []).seq = .idle ∧ (idle []).params.n ≤ (4 : Word).toNat ∧ (idle []).life = .inactive ∧
      { idle [] with life := .active }.life = .active := by decide

/-- One request for each of the five causes. -/
theorem witness_MarkHasListedCause :
    markAfter (step (idle [req 0x16 0 0 0])) = some (some .unassignedOp) ∧
      markAfter (step (idle [req 0x22 0 0 2])) = some (some .reservedOperand) ∧
      markAfter (step (idle [req 0x14 0 0 3])) = some (some .reservedColor) ∧
      markAfter (step (idle [req 0x15 4 0 0])) = some (some .indexOutOfRange) ∧
      markAfter (step (idle [req 0x02 0 0 0])) = some (some .illegalInLife) := by decide

theorem witness_RequestHeldWhileRunning :
    (Instr.fbPixel 0 0 1).IsHost ∧ (running .update 12 0 .ok false).seq = .run .update 12 0 := by
  decide

theorem witness_LifecycleRequestAccepted :
    (idle []).seq = .idle ∧ (idle []).life = .inactive ∧
      { idle [] with life := .active }.life = .active := by decide

/-- The answers of 22 calls that succeed, for `CHUNK = 1`, and of one busy-wait (V30). -/
def initDemo : State :=
  started p16 1 [] (List.replicate 21 .ok ++ [.err e0 0]) (busyLevels 2 ++ [false])

theorem witness_InitRunsToActive :
    initDemo.refused = none ∧ initDemo.seq = .idle ∧ initDemo.life = .inactive ∧
      initDemo.callAnswers =
        List.replicate (4 + sendCalls initDemo.chunk [0x0E] + sendCalls initDemo.chunk [0x19] +
          sendCalls initDemo.chunk [0x02] + sendCalls initDemo.chunk [0xCF, 0x8D]) .ok ++ [.err e0 0] ∧
      initDemo.busyAnswers = busyLevels 2 ++ [false] := by decide

/-- V31: `CHUNK = 3`, the busy answers `0, 1` then `0, 0, 1`. -/
def updateDemo : State :=
  { started p16 3 [] (List.replicate 18 .ok) (busyLevels 1 ++ busyLevels 2) with
    black := [(0, 0x80), (2, 0x01), (3, 0x01)], life := .active }

theorem witness_UpdateSendsBothPlanes :
    updateDemo.refused = none ∧ updateDemo.seq = .idle ∧ updateDemo.life = .active ∧
      updateDemo.callAnswers =
        List.replicate (sendCalls updateDemo.chunk (updateDemo.planeBytes .black) +
          sendCalls updateDemo.chunk (updateDemo.planeBytes .red) +
          sendCalls updateDemo.chunk [0x00] + sendCalls updateDemo.chunk [0x00]) .ok ++ [] ∧
      updateDemo.busyAnswers = busyLevels 1 ++ busyLevels 2 ++ [] := by decide

/-- V32. -/
def poweroffDemo : State :=
  { started p16 0 [] (List.replicate 6 .ok) (busyLevels 0) with life := .active }

theorem witness_PoweroffRunsToInactive :
    poweroffDemo.refused = none ∧ poweroffDemo.seq = .idle ∧ poweroffDemo.life = .active ∧
      poweroffDemo.callAnswers =
        List.replicate (sendCalls poweroffDemo.chunk [0x00] + 2) .ok ++ [] ∧
      poweroffDemo.busyAnswers = busyLevels 0 ++ [] := by decide

theorem witness_HwresetPulsesReset :
    (started p16 0 [] [.ok, .ok, .ok, .err e0 0] []).refused = none ∧
      (started p16 0 [] [.ok, .ok, .ok, .err e0 0] []).seq = .idle ∧
      (started p16 0 [] [.ok, .ok, .ok, .err e0 0] []).callAnswers =
        List.replicate 3 .ok ++ [.err e0 0] := by decide

/-- Each clause: the first step of SOFT_RESET, its opcode, DC high, its payload, its busy-wait. -/
theorem witness_FrameCallSucceeds :
    (∀ k ∈ [7, 8, 9, 10, 11], (running .init k 0 .ok false).seq = .run (frameEmitter .softReset) k 0 ∧
        (running .init k 0 .ok false).callAnswer = .ok) ∧
      frameFirst .softReset = 7 ∧ frameWaits .softReset = true ∧
      (3 : Nat) < ((running .update 3 3 .ok true).payload .bufBlack).length ∧
      (running .update 3 3 .ok true).seq = .run (frameEmitter .bufBlack) 3 3 ∧
      frameFirst .bufBlack + 3 = 3 := by decide

theorem witness_FrameCallFails :
    (∀ k ∈ [0, 1, 2, 3], (running .update k 0 (.err e0 9) true).seq = .run (frameEmitter .bufBlack) k 0 ∧
        (running .update k 0 (.err e0 9) true).callAnswer = .err e0 9) ∧
      frameFirst .bufBlack = 0 ∧
      (0 : Nat) < ((running .update 3 0 (.err e0 9) true).payload .bufBlack).length := by decide

/-- The steps just before and just after REFRESH's, and an idle block. -/
theorem witness_FrameElsewhereRefused :
    (running .update 12 0 .ok true).seq = .run (frameEmitter .refresh) 12 0 ∧
      ¬ (frameFirst .refresh ≤ 12) ∧ ¬ (18 < frameFirst .refresh + 5) ∧
      (idle []).seq = .idle := by decide

/-- POWER_OFF at its first step, with four answers. -/
def emissionDemo : State :=
  { running .poweroff 0 0 .ok true with callAnswers := [.ok, .ok, .ok, .ok] }

theorem witness_FrameEmissionIsSend :
    emissionDemo.refused = none ∧
      emissionDemo.seq = .run (frameEmitter .powerOff) (frameFirst .powerOff) 0 ∧
      emissionDemo.callAnswers =
        List.replicate (sendCalls emissionDemo.chunk (emissionDemo.payload .powerOff)) .ok ++ [] := by
  decide

/-- A transfer of four bytes with `CHUNK = 3`: two writes, two answers, and a third one left. -/
def transferDemo : State :=
  { running .update 3 0 .ok true with callAnswers := [.ok, .ok, .err e0 0] }

theorem witness_TransferSplitsIntoChunks :
    transferDemo.refused = none ∧ transferDemo.seq = .run .update 3 0 ∧
      (transferDemo.table .update)[3]? = some (.xfer [0x80, 0x00, 0x01, 0x01]) ∧
      ¬ (transferDemo.chunk = 0 ∨ 4 ≤ transferDemo.chunk.toNat) ∧
      (4 + transferDemo.chunk.toNat - 1) / transferDemo.chunk.toNat = 2 ∧
      transferDemo.callAnswers = List.replicate 2 .ok ++ [.err e0 0] := by decide

theorem witness_RstEntryDrivesLine :
    (∀ a ∈ [CallAnswer.ok, .err e0 0],
        (running .hwreset 2 0 a true).refused = none ∧
          (running .hwreset 2 0 a true).seq = .run .hwreset 2 0 ∧
          (running .hwreset 2 0 a true).callAnswer = a) ∧
      ((running .hwreset 2 0 .ok true).table .hwreset)[2]? = some (.rst false) := by decide

theorem witness_DcEntryDrivesLine :
    (∀ a ∈ [CallAnswer.ok, .err e0 0],
        (running .init 0 0 a true).refused = none ∧
          (running .init 0 0 a true).seq = .run .init 0 0 ∧
          (running .init 0 0 a true).callAnswer = a) ∧
      ((running .init 0 0 .ok true).table .init)[0]? = some (.dc true) := by decide

theorem witness_DelayAndEndEntries :
    (running .poweroff 6 0 .ok true).refused = none ∧
      (running .poweroff 6 0 .ok true).seq = .run .poweroff 6 0 ∧
      ((running .poweroff 6 0 .ok true).table .poweroff)[6]? = some (.delay 150) ∧
      ((running .poweroff 8 0 .ok true).table .poweroff)[8]? = some (.fin (some .inactive)) ∧
      ((running .hwreset 6 0 .ok true).table .hwreset)[6]? = some (.fin none) := by decide

theorem witness_BusyWaitHasNoBound :
    (running .update 12 0 .ok false).refused = none ∧
      (running .update 12 0 .ok false).seq = .run .update 12 0 ∧
      ((running .update 12 0 .ok false).table .update)[12]? = some .busy ∧
      (running .update 12 0 .ok false).busyAnswers = List.replicate 1 false ++ [] := by decide

/-- One state for each kind of error. -/
theorem witness_ErrorEndsOperation :
    (∀ q ∈ [(Opr.init, 0, Status.dcLineError), (.hwreset, 2, .rstLineError), (.update, 3, .busError)],
      (running q.1 q.2.1 0 (.err e0 0) true).seq = .run q.1 q.2.1 0 ∧
        (running q.1 q.2.1 0 (.err e0 0) true).response = none ∧
        responseAfter (step (running q.1 q.2.1 0 (.err e0 0) true)) =
          some (some { st := q.2.2, r0 := 0, r1 := 0, err := some e0 })) ∧
      Status.busError ≠ Status.ok := by decide

theorem witness_PlaneBitsFollowColour :
    MemOk (idle []) ∧ colorOfCode 2 = some .red ∧
      ((idle []).putPixel 3 0x01 .red).readByte .red 3 = 0x01 :=
  ⟨witness_PixelLastWriteWins.1, by decide, by decide⟩

end Sys2Proof.Tests
end

/-! SUPPORT. Proofs for the statements of 00_scope.md: construction, the construction values, one
event per port call, and `CLR.FROMRGB` under every classifier. -/

section
namespace Sys2Proof.Machine

open Sys2Proof

/-! ### Construction -/

/-- `OPC` is a bijection exactly when its codes are the five opcodes in some order (R8). -/
theorem OpcMap.legal_iff_perm (o : OpcMap) : o.Legal ↔ o.codes.Perm openOpcodes := by
  constructor
  · rintro ⟨nodup, mem⟩
    exact (List.subperm_of_subset nodup mem).perm_of_length_le (Nat.le_refl 5)
  · intro h
    exact ⟨h.nodup_iff.2 (by decide), fun _ => h.mem_iff.1⟩

/-- The transfer limit is no zero: unbounded or positive (R7). -/
theorem maxXfer_ne_zero_iff (x : Option Nat) : x ≠ some 0 ↔ ∀ m, x = some m → 0 < m := by
  cases x <;> simp [Nat.pos_iff_ne_zero]

/-- The chunk size is 0 or within every bound there is (R7). -/
theorem Params.chunkLegal_iff (p : Params) (c : Word) :
    p.ChunkLegal c ↔ c.toNat = 0 ∨ ∀ m, p.maxXfer = some m → c.toNat ≤ m := by
  simp [Params.ChunkLegal, Option.all_eq_true, ← BitVec.toNat_inj]

/-- Construction yields the constructed block for legal values, and no other block (R240). -/
theorem State.construct?_eq_some_iff (p : Params) (c : Word) (s : State) :
    State.construct? p c = some s ↔
      p.Legal ∧ p.ChunkLegal c ∧ s = State.construct p c := by
  simp only [State.construct?, Option.ite_none_right_eq_some, Option.some.injEq, and_assoc,
    eq_comm (a := s)]

/-- Settles O12: the two sides are the same bounds, once R7 and R8 are in the statement's form. -/
theorem constructionRejectsIllegal : Obligations.ConstructionRejectsIllegal := by
  intro p c s
  rw [State.construct?_eq_some_iff, Params.chunkLegal_iff, Params.Legal, OpcMap.legal_iff_perm,
    maxXfer_ne_zero_iff]
  constructor
  · rintro ⟨⟨hw8, hwlo, hhlo, hwhi, hhhi, hn, hmax, hopc⟩, hc, hs⟩
    exact ⟨⟨hw8, hwlo, hwhi⟩, ⟨hhlo, hhhi⟩, hn, hmax, hc, hopc, hs⟩
  · rintro ⟨⟨hw8, hwlo, hwhi⟩, ⟨hhlo, hhhi⟩, hn, hmax, hc, hopc, hs⟩
    exact ⟨⟨hw8, hwlo, hhlo, hwhi, hhhi, hn, hmax, hopc⟩, hc, hs⟩

/-! ### The construction values -/

@[simp] theorem State.writePixel_params (s : State) (x y : Int) (c : Color) :
    (s.writePixel x y c).params = s.params := by
  obtain ⟨-, h⟩ | ⟨i, m, -, h⟩ := s.writePixel_cases x y c <;> simp [h]

@[simp] theorem State.writePixel_chunk (s : State) (x y : Int) (c : Color) :
    (s.writePixel x y c).chunk = s.chunk := by
  obtain ⟨-, h⟩ | ⟨i, m, -, h⟩ := s.writePixel_cases x y c <;> simp [h]

/-- No framebuffer operation writes a construction value. -/
theorem FbEffect.params_chunk {s t : State} (h : FbEffect s t) :
    t.params = s.params ∧ t.chunk = s.chunk := by
  cases h <;> simp

/-- No host request writes a construction value. -/
theorem HostEffect.params_chunk {s t : State} (h : HostEffect s t) :
    t.params = s.params ∧ t.chunk = s.chunk := by
  cases h with
  | refused why => simp
  | accepted o _ => simp
  | done u hu r0 r1 => simpa using hu.params_chunk

/-- Settles O18, by what a step can do. -/
theorem constructionValuesNeverChange : Obligations.ConstructionValuesNeverChange := by
  intro s t h
  obtain ⟨-, hc⟩ := step_cases h
  cases hc with
  | waiting => simp
  | rejected => simp
  | taken _ r rest _ i _ _ _ ht => simpa using ht.params_chunk
  | running o k off _ e _ =>
    have same := s.runEntry_sameStore e
    exact ⟨same.params, same.chunk⟩

/-! ### One event per port call -/

/-- A step of a running operation runs the entry of its table at which `SEQ` stands. -/
theorem step_running {s t : State} {o : Opr} {k off : Nat} (hs : s.seq = .run o k off)
    (h : step s = .next t) : ∃ e, (s.table o)[k]? = some e ∧ t = s.runEntry e := by
  obtain ⟨-, hc⟩ := step_cases h
  cases hc with
  | waiting hi => cases hs.symm.trans hi
  | rejected hi => cases hs.symm.trans hi
  | taken hi => cases hs.symm.trans hi
  | running o' k' off' hr e he =>
    cases hs.symm.trans hr
    exact ⟨e, he, rfl⟩

@[simp] theorem State.chunkSent_transcript (s : State) (p : List Byte) (n : Nat) :
    (s.chunkSent p n).transcript = s.transcript := by
  obtain ⟨-, h⟩ | ⟨-, h⟩ := s.chunkSent_cases p n <;> simp [h]

/-- One `BusWrite` of a transfer that is not over appends one event (42_panel_link.md R151). -/
theorem State.callXfer_emits_one {s : State} {p : List Byte} (h : s.seq.off < p.length) :
    ∃ ev, (s.callXfer p).transcript = s.transcript ++ [ev] := by
  obtain ⟨hover, -⟩ | ⟨-, -, hx⟩ | ⟨e, d, -, -, hx⟩ := s.callXfer_cases p
  · omega
  · simp [hx]
  · simp [hx]

/-- Every entry but `END` appends one event, a transfer if it is not over (42_panel_link.md
R150). -/
theorem State.runEntry_emits_one {s : State} {e : Entry} (hfin : ∀ l, e ≠ .fin l)
    (hxfer : ∀ p, e = .xfer p → s.seq.off < p.length) :
    ∃ ev, (s.runEntry e).transcript = s.transcript ++ [ev] := by
  cases e with
  | dc v => obtain ⟨-, h⟩ | ⟨_, _, -, h⟩ := s.callDc_cases v <;> simp [State.runEntry, h]
  | rst v => obtain ⟨-, h⟩ | ⟨_, _, -, h⟩ := s.callRst_cases v <;> simp [State.runEntry, h]
  | delay n => simp [State.runEntry, State.callDelay]
  | xfer p => exact State.callXfer_emits_one (hxfer p rfl)
  | busy => obtain ⟨-, h⟩ | ⟨-, h⟩ := s.callBusy_cases <;> simp [State.runEntry, h]
  | fin l => exact absurd rfl (hfin l)

/-- A sequencer inside its table has bytes of its transfer left to send (10_state.md R31). -/
theorem seqOk_off_lt {s : State} (h : SeqOk s) {o : Opr} {k off : Nat} {p : List Byte}
    (hs : s.seq = .run o k off) (he : (s.table o)[k]? = some (.xfer p)) :
    s.seq.off < p.length := by
  obtain ⟨-, e, hek, hoff⟩ := h o k off hs
  cases he.symm.trans hek
  simpa [hs, Seq.off] using hoff

/-- Settles O23: the step runs its table entry, and a transfer there is not over. -/
theorem oneEventPerPortCall : Obligations.OneEventPerPortCall := by
  intro s t o k off hok hs h
  obtain ⟨e, he, rfl⟩ := step_running hs h
  constructor
  · intro hfin
    exact State.runEntry_emits_one (fun l hl => hfin l (hl ▸ he))
      fun p hp => seqOk_off_lt hok hs (hp ▸ he)
  · intro l hl
    cases he.symm.trans hl
    exact s.finish_transcript l

/-! ### `CLR.FROMRGB` -/

/-- `CLR.FROMRGB` of an idle block completes with the classifier's colour (40_color.md R103). -/
theorem exec_clrFromrgb_idle {s : State} (hs : s.seq = .idle) (v : U24) :
    exec (.clrFromrgb v) s =
      .next (s.complete (colorResult (classifyRgb s.params.classifier v)) 0) :=
  congrArg Host.Outcome.next (State.whenIdle_idle hs _)

theorem colorResult_mem (c : Color) :
    colorResult c = 0 ∨ colorResult c = 1 ∨ colorResult c = 2 := by
  cases c <;> decide

theorem colorResult_eq_two_iff (c : Color) : colorResult c = 2 ↔ c = .red := by
  cases c <;> decide

theorem colorResult_eq_zero_iff (c : Color) : colorResult c = 0 ↔ c = .white := by
  cases c <;> decide

/-- When a classifier answers Red (40_color.md R104 L3). -/
theorem classifyBy_eq_red_iff (chroma redness redThreshold brightness halfScale : Int) :
    classifyBy chroma redness redThreshold brightness halfScale = .red ↔
      redThreshold < chroma ∧ redThreshold < redness := by
  unfold classifyBy
  split_ifs with hred hwhite <;> simp [hred]

/-- When a classifier answers White (40_color.md R104 L3). -/
theorem classifyBy_eq_white_iff (chroma redness redThreshold brightness halfScale : Int) :
    classifyBy chroma redness redThreshold brightness halfScale = .white ↔
      classifyBy chroma redness redThreshold brightness halfScale ≠ .red ∧
        halfScale < brightness := by
  unfold classifyBy
  split_ifs with hred hwhite <;> simp [*]

/-- Every classifier maps the three colours of `to_rgb` back to themselves (40_color.md R104 L2). -/
theorem classifyRgb_toRgb (k : Classifier) (c : Color) : classifyRgb k (toRgb c) = c := by
  cases k with
  | standard => cases c <;> decide
  | lawful =>
    cases c <;>
      simp [classifyRgb, classifyLawful, classifyBy, lawfulChroma, lawfulRedness, lawfulBrightness,
        toRgb]

/-- Settles O27: the answer is the code of the classifier's colour. -/
theorem clrFromrgbAnswersColour : Obligations.ClrFromrgbAnswersColour := by
  intro k
  refine ⟨fun v => colorResult (classifyRgb k v), ?_, fun v => colorResult_mem _,
    congrArg colorResult (classifyRgb_toRgb k .white),
    congrArg colorResult (classifyRgb_toRgb k .black),
    congrArg colorResult (classifyRgb_toRgb k .red), ?_⟩
  · rintro s v hs rfl
    exact exec_clrFromrgb_idle hs v
  · rintro rfl v
    simp only [ne_eq, colorResult_eq_two_iff, colorResult_eq_zero_iff]
    exact ⟨classifyBy_eq_red_iff .., classifyBy_eq_white_iff ..⟩

end Sys2Proof.Machine
end

/-! SUPPORT. Proofs for the statements of 10_state.md: the invariant, the step of a running block, and
what a step leaves unchanged. -/

section
namespace Sys2Proof.Machine

open Sys2Proof

/-! ### What a table entry can do -/

/-- Everything a table entry can do, one constructor per outcome of its port call (43_lifecycle.md
R184, 42_panel_link.md R151 to R156). -/
inductive EntryEffect (s : State) : Entry → State → Prop where
  | dcOk (v : Bool) (ha : s.callAnswer = .ok) :
      EntryEffect s (.dc v) ((s.drawCall.emit (.dc v true)).setDc (Level.ofBool v)).advance
  | dcErr (v : Bool) (e : CollabError) (d : Nat) (ha : s.callAnswer = .err e d) :
      EntryEffect s (.dc v)
        (((s.drawCall.emit (.dc v false)).setDc .unknown).raise .dcLineError e)
  | rstOk (v : Bool) (ha : s.callAnswer = .ok) :
      EntryEffect s (.rst v) ((s.drawCall.emit (.rst v true)).setRst (Level.ofBool v)).advance
  | rstErr (v : Bool) (e : CollabError) (d : Nat) (ha : s.callAnswer = .err e d) :
      EntryEffect s (.rst v)
        (((s.drawCall.emit (.rst v false)).setRst .unknown).raise .rstLineError e)
  | delay (n : Nat) : EntryEffect s (.delay n) (s.emit (.delay n)).advance
  | xferOver (p : List Byte) (h : p.length ≤ s.seq.off) : EntryEffect s (.xfer p) s.advance
  | xferMore (p : List Byte) (ha : s.callAnswer = .ok)
      (h : s.seq.off + (s.nextChunk p).length < p.length) :
      EntryEffect s (.xfer p)
        ((s.drawCall.emit (.wr (s.nextChunk p) none)).setOff
          (s.seq.off + (s.nextChunk p).length))
  | xferLast (p : List Byte) (ha : s.callAnswer = .ok) (h : s.seq.off < p.length)
      (hl : p.length ≤ s.seq.off + (s.nextChunk p).length) :
      EntryEffect s (.xfer p) (s.drawCall.emit (.wr (s.nextChunk p) none)).advance
  | xferErr (p : List Byte) (e : CollabError) (d : Nat) (ha : s.callAnswer = .err e d)
      (h : s.seq.off < p.length) :
      EntryEffect s (.xfer p)
        ((s.drawCall.emit (.wr (s.nextChunk p) (some (min d (s.nextChunk p).length)))).raise
          .busError e)
  | busyOver (ha : s.busyAnswer = true) :
      EntryEffect s .busy (s.drawBusy.emit (.busy true)).advance
  | busyStill (ha : s.busyAnswer = false) : EntryEffect s .busy (s.drawBusy.emit (.busy false))
  | fin (l : Option Life) : EntryEffect s (.fin l) (s.finish l)

/-- One `BusWrite` of a transfer does one of the things `EntryEffect` lists for it. -/
theorem State.callXfer_effect (s : State) (p : List Byte) :
    EntryEffect s (.xfer p) (s.callXfer p) := by
  obtain ⟨hover, hx⟩ | ⟨hlt, ha, hx⟩ | ⟨e, d, hlt, ha, hx⟩ := s.callXfer_cases p
  · exact hx ▸ .xferOver p hover
  · obtain ⟨hmore, hc⟩ | ⟨hlast, hc⟩ := State.chunkSent_cases
      (s.drawCall.emit (.wr (s.nextChunk p) none)) p (s.nextChunk p).length
    · exact hx ▸ hc ▸ .xferMore p ha hmore
    · exact hx ▸ hc ▸ .xferLast p ha hlt hlast
  · exact hx ▸ .xferErr p e d ha hlt

/-- The interpreter of an entry does one of the things `EntryEffect` lists for it. -/
theorem State.runEntry_effect (s : State) (e : Entry) : EntryEffect s e (s.runEntry e) := by
  cases e with
  | dc v =>
    obtain ⟨ha, h⟩ | ⟨e, d, ha, h⟩ := s.callDc_cases v
    · rw [State.runEntry, h]; exact .dcOk v ha
    · rw [State.runEntry, h]; exact .dcErr v e d ha
  | rst v =>
    obtain ⟨ha, h⟩ | ⟨e, d, ha, h⟩ := s.callRst_cases v
    · rw [State.runEntry, h]; exact .rstOk v ha
    · rw [State.runEntry, h]; exact .rstErr v e d ha
  | delay n => exact .delay n
  | xfer p => exact s.callXfer_effect p
  | busy =>
    obtain ⟨ha, h⟩ | ⟨ha, h⟩ := s.callBusy_cases
    · rw [State.runEntry, h]; exact .busyOver ha
    · rw [State.runEntry, h]; exact .busyStill ha
  | fin l => exact .fin l

/-- Only a `DC` entry drives `DC_OUT` (10_state.md R27). -/
theorem EntryEffect.dcOut_eq {s t : State} {e : Entry} (h : EntryEffect s e t)
    (hne : ∀ v, e ≠ .dc v) : t.dcOut = s.dcOut := by
  cases h with
  | dcOk v | dcErr v => exact absurd rfl (hne v)
  | _ => rfl

/-- Only an `RST` entry drives `RST_OUT` (10_state.md R28). -/
theorem EntryEffect.rstOut_eq {s t : State} {e : Entry} (h : EntryEffect s e t)
    (hne : ∀ v, e ≠ .rst v) : t.rstOut = s.rstOut := by
  cases h with
  | rstOk v | rstErr v => exact absurd rfl (hne v)
  | _ => rfl

/-- Only an `END` entry writes `LIFE` (10_state.md R25). -/
theorem EntryEffect.life_eq {s t : State} {e : Entry} (h : EntryEffect s e t)
    (hne : ∀ l, e ≠ .fin l) : t.life = s.life := by
  cases h with
  | fin l => exact absurd rfl (hne l)
  | _ => rfl

/-! ### Where an entry leaves the sequencer -/

/-- `off` is the sent bytes of a transfer that is not over, and 0 at any other entry (10_state.md
R31): the condition `SeqOk` puts on the entry of a running step. -/
def Entry.OffOk : Entry → Nat → Prop
  | .xfer p, off => off < p.length
  | .dc _, off | .rst _, off | .delay _, off | .busy, off | .fin _, off => off = 0

theorem seqOk_iff (s : State) :
    SeqOk s ↔ ∀ o k off, s.seq = .run o k off →
      o.legalIn s.life = true ∧ ∃ e, (s.table o)[k]? = some e ∧ e.OffOk off := by
  constructor <;>
    (intro h o k off hs
     obtain ⟨hlegal, e, he, hoff⟩ := h o k off hs
     exact ⟨hlegal, e, he, by cases e <;> exact hoff⟩)

/-- The response is well formed: the condition `PortOk` puts on it (30_encoding.md R70, R76). -/
def Response.WellFormed (r : Response) : Prop :=
  (r.st = .ok ↔ r.err = none) ∧ (r.st ≠ .ok → r.r0 = 0 ∧ r.r1 = 0)

theorem Response.wellFormed_ok (r0 r1 : Word) :
    Response.WellFormed { st := .ok, r0 := r0, r1 := r1, err := none } := by
  simp [Response.WellFormed]

theorem Response.wellFormed_error {st : Status} (h : st ≠ .ok) (e : CollabError) :
    Response.WellFormed { st := st, r0 := 0, r1 := 0, err := some e } := by
  simp [Response.WellFormed, h]

/-- The value an entry drives DC to, if it is a `DC` entry. -/
def Entry.drivesDc : Entry → Option Bool
  | .dc v => some v
  | .rst _ | .delay _ | .xfer _ | .busy | .fin _ => none

/-- The value an entry drives RST to, if it is an `RST` entry. -/
def Entry.drivesRst : Entry → Option Bool
  | .rst v => some v
  | .dc _ | .delay _ | .xfer _ | .busy | .fin _ => none

/-- The level of a line once it was driven to a value, or not driven. -/
def Level.after (l : Level) : Option Bool → Level
  | some v => Level.ofBool v
  | none => l

/-- Where the entry of a running step leaves the sequencer, the lines and the response (10_state.md
R31): the operation ends, stays at its step, or goes on to the next one. -/
inductive SeqMove (s : State) (o : Opr) (k off : Nat) (e : Entry) (t : State) : Prop where
  | ended (hseq : t.seq = .idle) (r : Response) (hr : t.response = some r) (hw : r.WellFormed)
  | stayed (off' : Nat) (hseq : t.seq = .run o k off') (hle : off ≤ off')
      (hoff : e.OffOk off → e.OffOk off') (hlife : t.life = s.life) (hdc : t.dcOut = s.dcOut)
      (hrst : t.rstOut = s.rstOut) (hr : t.response = s.response)
  | advanced (hseq : t.seq = .run o (k + 1) 0) (hfin : ∀ l, e ≠ .fin l)
      (hdc : t.dcOut = s.dcOut.after e.drivesDc) (hrst : t.rstOut = s.rstOut.after e.drivesRst)
      (hr : t.response = s.response)

theorem EntryEffect.seqMove {s t : State} {e : Entry} {o : Opr} {k off : Nat}
    (h : EntryEffect s e t) (hs : s.seq = .run o k off) : SeqMove s o k off e t := by
  have next : s.seq.next = .run o (k + 1) 0 := by rw [hs]; rfl
  cases h with
  | dcOk | rstOk | delay | xferOver | xferLast | busyOver => exact .advanced next nofun rfl rfl rfl
  | dcErr _ e | rstErr _ e | xferErr _ e =>
    exact .ended rfl _ rfl (Response.wellFormed_error (by decide) e)
  | xferMore p _ hlt =>
    rw [hs] at hlt
    exact .stayed (off + (s.nextChunk p).length) (by simp [hs, Seq.withOff, Seq.off])
      (Nat.le_add_right ..) (fun _ => hlt) rfl rfl rfl rfl
  | busyStill => exact .stayed off hs (Nat.le_refl off) id rfl rfl rfl rfl
  | fin => exact .ended rfl _ rfl (Response.wellFormed_ok 0 0)


/-! ### The step tables -/

/-- The `LIFE` the `END` entry of an operation writes; `none` is `keep` (43_lifecycle.md R187, R193,
R196, R200). -/
def Opr.endLife : Opr → Option Life
  | .init => some .active
  | .poweroff => some .inactive
  | .update | .hwreset => none

/-- Every step table closes with its operation's `END` entry. -/
theorem State.table_eq_concat (s : State) (o : Opr) :
    s.table o = (s.table o).dropLast ++ [.fin o.endLife] := by
  cases o <;> rfl

/-- No entry of a step table before its last is an `END` entry. -/
theorem State.fin_notMem_table_dropLast (s : State) (o : Opr) (l : Option Life) :
    .fin l ∉ (s.table o).dropLast := by
  cases o <;>
    simp [State.table, State.frameEntries, sendEntries, resetPulse, frameWaits]

/-- The `END` entry of a step table is its last entry and no other (43_lifecycle.md R184). -/
theorem State.table_fin_iff (s : State) (o : Opr) (k : Nat) (l : Option Life) :
    (s.table o)[k]? = some (.fin l) ↔ k + 1 = (s.table o).length ∧ l = o.endLife := by
  have hlen : (s.table o).length = (s.table o).dropLast.length + 1 :=
    (congrArg List.length (s.table_eq_concat o)).trans (by simp)
  rw [hlen, s.table_eq_concat o, List.dropLast_concat, List.getElem?_append]
  split
  · next hk =>
    refine ⟨fun h => absurd (List.mem_of_getElem? h) (s.fin_notMem_table_dropLast o l), ?_⟩
    rintro ⟨hlast, -⟩
    omega
  · next hk =>
    rw [List.getElem?_singleton]
    split
    · simp only [Option.some.injEq, Entry.fin.injEq]
      constructor
      · rintro rfl
        exact ⟨by omega, rfl⟩
      · rintro ⟨-, rfl⟩
        rfl
    · refine ⟨nofun, ?_⟩
      rintro ⟨hlast, -⟩
      omega

/-- After an entry that is not `END` the table has a next entry (10_state.md R31). -/
theorem State.table_next {s : State} {o : Opr} {k : Nat} {e : Entry}
    (he : (s.table o)[k]? = some e) (hfin : ∀ l, e ≠ .fin l) :
    ∃ e', (s.table o)[k + 1]? = some e' := by
  have hk : k < (s.table o).length := (List.getElem?_eq_some_iff.1 he).1
  have hne : k + 1 ≠ (s.table o).length := fun hlast =>
    hfin o.endLife (Option.some.inj (he.symm.trans ((s.table_fin_iff o k _).2 ⟨hlast, rfl⟩)))
  exact ⟨_, List.getElem?_eq_getElem (by omega)⟩

/-- A legal geometry has at least one byte in each plane (00_scope.md R6). -/
theorem Params.n_pos {p : Params} (h : p.Legal) : 0 < p.n := by
  obtain ⟨-, hw, hh, -⟩ := h
  exact Nat.mul_pos hh (by omega)

/-- No frame has an empty transfer, so each of its entries may begin with `off = 0`. -/
theorem State.frameEntries_offOk {s : State} (hn : 0 < s.params.n) (f : Frame) :
    ∀ e ∈ s.frameEntries f, e.OffOk 0 := by
  have hp : 0 < (s.payload f).length := by
    cases f <;> simp [State.payload, Frame.payloadOf, hn]
  cases hw : frameWaits f <;> simp [State.frameEntries, sendEntries, hw, Entry.OffOk, hp]

/-- Every entry of a step table may begin with `off = 0` (10_state.md R31). -/
theorem State.table_offOk {s : State} (hn : 0 < s.params.n) (o : Opr) :
    ∀ e ∈ s.table o, e.OffOk 0 := by
  have hframe := State.frameEntries_offOk hn
  have hpulse : ∀ e ∈ resetPulse, e.OffOk 0 := by simp [resetPulse, Entry.OffOk]
  cases o <;> simp only [State.table, List.forall_mem_append, List.forall_mem_singleton]
  case init =>
    exact ⟨⟨⟨⟨⟨⟨rfl, hpulse⟩, hframe _⟩, hframe _⟩, hframe _⟩, hframe _⟩, rfl⟩
  case update => exact ⟨⟨⟨⟨hframe _, hframe _⟩, hframe _⟩, hframe _⟩, rfl⟩
  case poweroff => exact ⟨hframe _, by simp [Entry.OffOk]⟩
  case hwreset => exact ⟨hpulse, rfl⟩

/-! ### A running step keeps the invariant -/

theorem lastDc_concat (es : List Entry) (e : Entry) :
    lastDc (es ++ [e]) = e.drivesDc.or (lastDc es) := by
  induction es with
  | nil => cases e <;> rfl
  | cons e' es ih => cases e' <;> simp [lastDc, ih]

theorem lastRst_concat (es : List Entry) (e : Entry) :
    lastRst (es ++ [e]) = e.drivesRst.or (lastRst es) := by
  induction es with
  | nil => cases e <;> rfl
  | cons e' es ih => cases e' <;> simp [lastRst, ih]

/-- A line that has the level last driven still has it after one more entry has completed. -/
theorem Level.after_held {l : Level} {last : Option Bool} (u : Option Bool)
    (h : ∀ v, last = some v → l = Level.ofBool v) (v : Bool) (hv : u.or last = some v) :
    l.after u = Level.ofBool v := by
  cases u with
  | some w => exact congrArg Level.ofBool (Option.some.inj hv)
  | none => exact h v hv

/-- The part of the invariant that speaks of the construction values and the planes. -/
structure StoreOk (s : State) : Prop where
  legal      : s.params.Legal
  chunkLegal : s.params.ChunkLegal s.chunk
  memOk      : MemOk s
  exclusive  : PlanesExclusive s

theorem storeOk_of_inv {s : State} (h : Inv s) : StoreOk s :=
  ⟨h.legal, h.chunkLegal, h.memOk, h.exclusive⟩

theorem SameStore.storeOk {s t : State} (same : SameStore s t) (h : StoreOk s) : StoreOk t where
  legal := same.params ▸ h.legal
  chunkLegal := by
    rw [same.params, same.chunk]
    exact h.chunkLegal
  memOk := MemOk.of_eq h.memOk same.black same.red same.params
  exclusive i := by
    rw [same.readByte, same.readByte]
    exact h.exclusive i

/-- An idle block meets the invariant when its store and its response do. -/
theorem inv_of_idle {t : State} (hs : t.seq = .idle) (store : StoreOk t)
    (hresp : ∀ r, t.response = some r → r.WellFormed) : Inv t where
  legal := store.legal
  chunkLegal := store.chunkLegal
  memOk := store.memOk
  exclusive := store.exclusive
  seqOk _ _ _ h := nomatch hs.symm.trans h
  linesOk _ _ _ h := nomatch hs.symm.trans h
  portOk := ⟨fun _ _ _ h => (nomatch hs.symm.trans h), hresp⟩
  refusedIdle _ := hs

/-- A running block meets the invariant when its store, its place and its lines do, and it has neither
answered nor refused. -/
theorem inv_of_run {t : State} {o : Opr} {k off : Nat} {e : Entry} (hs : t.seq = .run o k off)
    (store : StoreOk t) (hlegal : o.legalIn t.life = true) (he : (t.table o)[k]? = some e)
    (hoff : e.OffOk off)
    (hdc : ∀ v, lastDc ((t.table o).take k) = some v → t.dcOut = Level.ofBool v)
    (hrst : ∀ v, lastRst ((t.table o).take k) = some v → t.rstOut = Level.ofBool v)
    (hresp : t.response = none) (hmark : t.refused = none) : Inv t where
  legal := store.legal
  chunkLegal := store.chunkLegal
  memOk := store.memOk
  exclusive := store.exclusive
  seqOk := by
    refine (seqOk_iff t).2 fun o' k' off' hs' => ?_
    cases hs.symm.trans hs'
    exact ⟨hlegal, e, he, hoff⟩
  linesOk o' k' off' hs' := by
    cases hs.symm.trans hs'
    exact ⟨hdc, hrst⟩
  portOk := ⟨fun _ _ _ _ => hresp, fun _ hr => nomatch hresp.symm.trans hr⟩
  refusedIdle h := absurd hmark h

/-- The entry of a running step keeps the invariant. -/
theorem inv_runEntry {s : State} (hi : Inv s) (hm : s.refused = none) {o : Opr} {k off : Nat}
    {e : Entry} (hs : s.seq = .run o k off) (he : (s.table o)[k]? = some e) :
    Inv (s.runEntry e) := by
  obtain ⟨hlegal, e', he', hoff⟩ := (seqOk_iff s).1 hi.seqOk o k off hs
  obtain ⟨hdc, hrst⟩ := hi.linesOk o k off hs
  cases he.symm.trans he'
  have unanswered := hi.portOk.1 o k off hs
  have eff := s.runEntry_effect e
  have same := s.runEntry_sameStore e
  have store := same.storeOk (storeOk_of_inv hi)
  have table := State.table_congr same o
  have mark := same.refused.trans hm
  cases eff.seqMove hs with
  | ended hseq r hr hw =>
    exact inv_of_idle hseq store fun r' hr' => Option.some.inj (hr.symm.trans hr') ▸ hw
  | stayed off' hseq _ hoff' hlife hdc' hrst' hr =>
    rw [← hlife] at hlegal
    rw [← hdc', ← table] at hdc
    rw [← hrst', ← table] at hrst
    exact inv_of_run hseq store hlegal (table ▸ he) (hoff' hoff) hdc hrst (hr.trans unanswered) mark
  | advanced hseq hfin hdc' hrst' hr =>
    obtain ⟨e', he'⟩ := State.table_next he hfin
    have htake : ((s.runEntry e).table o).take (k + 1) = (s.table o).take k ++ [e] := by
      rw [table, List.take_add_one, he, Option.toList_some]
    have hfirst := State.table_offOk (Params.n_pos hi.legal) o e' (List.mem_of_getElem? he')
    rw [← eff.life_eq hfin] at hlegal
    refine inv_of_run hseq store hlegal (table ▸ he') hfirst ?_ ?_ (hr.trans unanswered) mark
    · rw [htake, hdc', lastDc_concat]
      exact Level.after_held _ hdc
    · rw [htake, hrst', lastRst_concat]
      exact Level.after_held _ hrst

/-! ### A host request keeps the invariant -/

@[simp] theorem State.writePixel_life (s : State) (x y : Int) (c : Color) :
    (s.writePixel x y c).life = s.life := by
  obtain ⟨-, h⟩ | ⟨i, m, -, h⟩ := s.writePixel_cases x y c <;> simp [h]

@[simp] theorem State.writePixel_dcOut (s : State) (x y : Int) (c : Color) :
    (s.writePixel x y c).dcOut = s.dcOut := by
  obtain ⟨-, h⟩ | ⟨i, m, -, h⟩ := s.writePixel_cases x y c <;> simp [h]

@[simp] theorem State.writePixel_rstOut (s : State) (x y : Int) (c : Color) :
    (s.writePixel x y c).rstOut = s.rstOut := by
  obtain ⟨-, h⟩ | ⟨i, m, -, h⟩ := s.writePixel_cases x y c <;> simp [h]

@[simp] theorem State.writePixel_seq (s : State) (x y : Int) (c : Color) :
    (s.writePixel x y c).seq = s.seq := by
  obtain ⟨-, h⟩ | ⟨i, m, -, h⟩ := s.writePixel_cases x y c <;> simp [h]

@[simp] theorem State.writePixel_rot (s : State) (x y : Int) (c : Color) :
    (s.writePixel x y c).rot = s.rot := by
  obtain ⟨-, h⟩ | ⟨i, m, -, h⟩ := s.writePixel_cases x y c <;> simp [h]

theorem FbEffect.seq_eq {s t : State} (h : FbEffect s t) : t.seq = s.seq := by
  cases h <;> simp

theorem State.newFramebuffer_memOk (s : State) : MemOk s.newFramebuffer := ⟨rfl, rfl, rfl, rfl⟩

/-- Empty planes have no common bit. -/
theorem planesExclusive_of_empty {s : State} (hb : s.black = []) (hr : s.red = []) :
    PlanesExclusive s := by
  intro i
  simp [State.readByte, State.plane, hb, hr, unlistedByte]

/-- A pixel write keeps the planes' form and exclusivity (41_framebuffer.md R129 to R131). -/
theorem StoreOk.writePixel {s : State} (h : StoreOk s) (x y : Int) (c : Color) :
    StoreOk (s.writePixel x y c) := by
  obtain ⟨-, hw⟩ | ⟨i, m, hcell, hw⟩ := s.writePixel_cases x y c
  · rwa [hw]
  · rw [hw]
    exact ⟨h.legal, h.chunkLegal,
      State.putPixel_memOk c h.memOk (State.pixelCell_lt h.legal.1 hcell),
      State.putPixel_exclusive h.memOk h.exclusive i m c⟩

theorem FbEffect.storeOk {s t : State} (eff : FbEffect s t) (h : StoreOk s) : StoreOk t := by
  cases eff with
  | same => exact h
  | fresh => exact ⟨h.legal, h.chunkLegal, s.newFramebuffer_memOk, planesExclusive_of_empty rfl rfl⟩
  | rotated r => exact ⟨h.legal, h.chunkLegal, h.memOk, h.exclusive⟩
  | pixel x y c => exact h.writePixel x y c

/-- Taking a request leaves an idle block's invariant. -/
theorem inv_takeRequest {s : State} (hi : Inv s) (hs : s.seq = .idle) (rest : List Request) :
    Inv (s.takeRequest rest) :=
  inv_of_idle hs ⟨hi.legal, hi.chunkLegal, hi.memOk, hi.exclusive⟩ hi.portOk.2

theorem inv_refuse {s : State} (hi : Inv s) (hs : s.seq = .idle) (why : RefuseReason) :
    Inv (s.refuse why) :=
  inv_of_idle hs ⟨hi.legal, hi.chunkLegal, hi.memOk, hi.exclusive⟩ hi.portOk.2

/-- A lifecycle operation begins inside its table, with no line driven yet (43_lifecycle.md R183). -/
theorem inv_accept {s : State} (hi : Inv s) (hm : s.refused = none) {o : Opr}
    (hlegal : o.legalIn s.life = true) : Inv (s.accept o) := by
  have store : StoreOk (s.accept o) := ⟨hi.legal, hi.chunkLegal, hi.memOk, hi.exclusive⟩
  have hpos : 0 < ((s.accept o).table o).length := by cases o <;> simp [State.table_length]
  exact inv_of_run rfl store hlegal (List.getElem?_eq_getElem hpos)
    (State.table_offOk (Params.n_pos hi.legal) o _ (List.getElem_mem hpos)) nofun nofun rfl hm

theorem inv_hostEffect {s t : State} (eff : HostEffect s t) (hi : Inv s) (hs : s.seq = .idle)
    (hm : s.refused = none) : Inv t := by
  cases eff with
  | refused why => exact inv_refuse hi hs why
  | accepted o hlegal => exact inv_accept hi hm hlegal
  | done u hu r0 r1 =>
    have store := hu.storeOk (storeOk_of_inv hi)
    refine inv_of_idle (hu.seq_eq.trans hs)
      ⟨store.legal, store.chunkLegal, store.memOk, store.exclusive⟩ fun r hr => ?_
    exact Option.some.inj hr ▸ Response.wellFormed_ok r0 r1

/-- Settles O14, by what a step can do. -/
theorem stepKeepsInvariant : Obligations.StepKeepsInvariant := by
  intro s t hi h
  obtain ⟨hm, hc⟩ := step_cases h
  cases hc with
  | waiting => exact hi
  | rejected hs r rest _ why => exact inv_refuse (inv_takeRequest hi hs rest) hs why
  | taken hs r rest _ i _ _ _ ht => exact inv_hostEffect ht (inv_takeRequest hi hs rest) hs hm
  | running o k off hs e he => exact inv_runEntry hi hm hs he

/-! ### The step of a running block, a marked block and a waiting block -/

theorem State.fetch_run {s : State} (hm : s.refused = none) {o : Opr} {k off : Nat}
    (hs : s.seq = .run o k off) : s.fetch = s.fetchStep o k := by
  simp [State.fetch, hm, hs]

/-- Settles O7: the step fetches the frame's instruction. -/
theorem runningStepRunsFrame : Obligations.RunningStepRunsFrame := by
  intro s o k off f hm hs hf
  simp [step, State.fetch_run hm hs, State.fetchStep, hf]

/-- Settles O8: an entry of a frame runs as the frame's instruction, any other one as it stands. -/
theorem runningStepInterpretsTable : Obligations.RunningStepInterpretsTable := by
  intro s o k off e hm hs he
  cases hf : frameAt o k with
  | some f =>
    rw [runningStepRunsFrame s o k off f hm hs hf]
    exact exec_frame_covers hs (frameAt_covers hf) he
  | none => simp [step, State.fetch_run hm hs, State.fetchStep, hf, he]

/-- Settles O10, by what is fetched. -/
theorem markedOrUnaskedStep : Obligations.MarkedOrUnaskedStep := by
  intro s
  constructor
  · intro hm
    obtain ⟨why, hw⟩ := Option.ne_none_iff_exists'.1 hm
    simp [step, State.fetch, hw]
  · intro hm hs hr
    simp [step, State.fetch, State.fetchRequest, hm, hs, hr]

/-- An idle unmarked block always has a next state: every request is executed or refused. -/
theorem step_idle_next {s : State} (hm : s.refused = none) (hs : s.seq = .idle) :
    ∃ t, step s = .next t := by
  cases hr : s.requests with
  | nil => exact ⟨s, (markedOrUnaskedStep s).2 hm hs hr⟩
  | cons r rest =>
    cases hd : decodeRequest r with
    | error why =>
      exact ⟨(s.takeRequest rest).refuse why,
        by simp [step, State.fetch, State.fetchRequest, hm, hs, hr, hd]⟩
    | ok i =>
      obtain ⟨t, ht, -⟩ := exec_host_effect (s := s.takeRequest rest) (decodeRequest_isHost hd) hs
      exact ⟨t, by simp [step, State.fetch, State.fetchRequest, hm, hs, hr, hd, ht]⟩

/-- Settles O15: an idle block serves any request, and a running one stands inside its table. -/
theorem blockNeverStops : Obligations.BlockNeverStops := by
  intro s hi hm
  cases hs : s.seq with
  | idle => exact step_idle_next hm hs
  | run o k off =>
    obtain ⟨-, e, he, -⟩ := hi.seqOk o k off hs
    exact ⟨s.runEntry e, runningStepInterpretsTable s o k off e hm hs he⟩

/-! ### Reachable states -/

/-- What every step keeps holds in every state a run reaches. -/
theorem runSteps_keeps {P : State → Prop} (hP : ∀ s t, P s → step s = .next t → P t) {n : Nat}
    {s t : State} (hs : P s) (h : runSteps n s = .next t) : P t := by
  induction n generalizing s with
  | zero => exact Host.Outcome.next.inj h ▸ hs
  | succ n ih =>
    unfold runSteps at h
    split at h
    · next u hu => exact ih (hP s u hs hu) h
    · cases h
    · cases h

/-- A block just constructed with legal values meets the invariant. -/
theorem inv_started {p : Params} {c : Word} (hp : p.Legal) (hc : p.ChunkLegal c)
    (rs : List Request) (calls : List CallAnswer) (levels : List Bool) :
    Inv (started p c rs calls levels) :=
  inv_of_idle rfl ⟨hp, hc, State.construct_memOk p c, planesExclusive_of_empty rfl rfl⟩ nofun

/-- Settles O16: exclusivity is part of the invariant, which holds along every run. -/
theorem reachablePlanesExclusive : Obligations.ReachablePlanesExclusive := by
  intro p c rs calls levels n t hp hc h i _
  have hi : Inv t := runSteps_keeps stepKeepsInvariant (inv_started hp hc rs calls levels) h
  exact hi.exclusive i

/-! ### What a step leaves unchanged -/

/-- A host request leaves `LIFE` and both lines as they are (10_state.md R25, R27, R28). -/
theorem HostEffect.life_lines {s t : State} (h : HostEffect s t) :
    t.life = s.life ∧ t.dcOut = s.dcOut ∧ t.rstOut = s.rstOut := by
  cases h with
  | refused | accepted => exact ⟨rfl, rfl, rfl⟩
  | done u hu => cases hu <;> simp

/-- A step that changes `LIFE` or a line is a step of a running operation. -/
theorem step_changes_life_or_line {s t : State} (h : step s = .next t)
    (hne : t.life ≠ s.life ∨ t.dcOut ≠ s.dcOut ∨ t.rstOut ≠ s.rstOut) :
    ∃ o k off e, s.seq = .run o k off ∧ (s.table o)[k]? = some e ∧ EntryEffect s e t := by
  obtain ⟨-, hc⟩ := step_cases h
  cases hc with
  | waiting => simp at hne
  | rejected => simp at hne
  | taken _ r rest _ i _ _ _ ht =>
    obtain ⟨hlife, hdc, hrst⟩ := ht.life_lines
    simp [hlife, hdc, hrst] at hne
  | running o k off hs e he => exact ⟨o, k, off, e, hs, he, s.runEntry_effect e⟩

/-- Settles O17: `LIFE` is written by `END` alone, which each table has once, at its last step. -/
theorem lifeChangesOnlyAtEnd : Obligations.LifeChangesOnlyAtEnd := by
  intro s t h hne
  obtain ⟨o, k, off, e, hs, he, eff⟩ := step_changes_life_or_line h (.inl hne)
  have hfin : ∃ l, e = .fin l := by
    by_contra hno
    exact hne (eff.life_eq (not_exists.1 hno))
  obtain ⟨l, rfl⟩ := hfin
  obtain ⟨hlast, rfl⟩ := (s.table_fin_iff o k l).1 he
  rw [State.table_length] at hlast
  cases eff
  cases o with
  | init =>
    obtain rfl : k = 24 := by simpa using hlast
    refine .inl ⟨⟨off, hs⟩, ?_, rfl, rfl⟩
    cases hl : s.life with
    | inactive => rfl
    | active => exact absurd hl.symm hne
  | poweroff =>
    obtain rfl : k = 8 := by simpa using hlast
    refine .inr ⟨⟨off, hs⟩, ?_, rfl, rfl⟩
    cases hl : s.life with
    | inactive => exact absurd hl.symm hne
    | active => rfl
  | update | hwreset => exact absurd rfl hne

/-- Settles O21: only a `DC` entry drives DC and only an `RST` entry drives RST. -/
theorem linesChangeOnlyAtTheirEntries : Obligations.LinesChangeOnlyAtTheirEntries := by
  intro s t h
  constructor
  · intro hne
    obtain ⟨o, k, off, e, hs, he, eff⟩ := step_changes_life_or_line h (.inr (.inl hne))
    by_contra hno
    exact hne (eff.dcOut_eq fun v hv => hno ⟨o, k, off, v, hs, hv ▸ he⟩)
  · intro hne
    obtain ⟨o, k, off, e, hs, he, eff⟩ := step_changes_life_or_line h (.inr (.inr hne))
    by_contra hno
    exact hne (eff.rstOut_eq fun v hv => hno ⟨o, k, off, v, hs, hv ▸ he⟩)

/-- Settles O22, by where an entry leaves the sequencer. -/
theorem sequencerNeverMovesBackward : Obligations.SequencerNeverMovesBackward := by
  intro s t o k off hs h
  obtain ⟨e, -, rfl⟩ := step_running hs h
  cases (s.runEntry_effect e).seqMove hs with
  | ended hseq => exact .inl hseq
  | stayed off' hseq hle => exact .inr (.inl ⟨off', hseq, hle⟩)
  | advanced hseq => exact .inr (.inr hseq)

/-- Settles O44: a legal lifecycle request is accepted. -/
theorem lifecycleRequestAccepted : Obligations.LifecycleRequestAccepted := by
  intro s hs
  have accepted : ∀ o : Opr, o.legalIn s.life = true →
      Host.Outcome.next (φ := Fault) (ρ := Refusal) (s.request o) = .next (s.accept o) :=
    fun o h => congrArg _ (State.request_legal hs h)
  refine ⟨fun hl => accepted .init ?_, fun hl => accepted .update ?_,
    fun hl => accepted .poweroff ?_, accepted .hwreset ?_⟩
  · rw [hl]; rfl
  · rw [hl]; rfl
  · rw [hl]; rfl
  · cases s.life <;> rfl

/-- A sequencer that goes on from a place of a table stands at the next step (10_state.md R31). -/
theorem State.advance_of_run {s : State} {o : Opr} {k off : Nat} (hs : s.seq = .run o k off) :
    s.advance = { s with seq := .run o (k + 1) 0 } := by
  simp [State.advance, hs, Seq.next]

theorem State.callRst_of_ok {s : State} (ha : s.callAnswer = .ok) (v : Bool) :
    s.callRst v = ((s.drawCall.emit (.rst v true)).setRst (Level.ofBool v)).advance := by
  simp [State.callRst, ha]

theorem State.callRst_of_err {s : State} {e : CollabError} {d : Nat}
    (ha : s.callAnswer = .err e d) (v : Bool) :
    s.callRst v = ((s.drawCall.emit (.rst v false)).setRst .unknown).raise .rstLineError e := by
  simp [State.callRst, ha]

theorem State.callDc_of_ok {s : State} (ha : s.callAnswer = .ok) (v : Bool) :
    s.callDc v = ((s.drawCall.emit (.dc v true)).setDc (Level.ofBool v)).advance := by
  simp [State.callDc, ha]

theorem State.callDc_of_err {s : State} {e : CollabError} {d : Nat}
    (ha : s.callAnswer = .err e d) (v : Bool) :
    s.callDc v = ((s.drawCall.emit (.dc v false)).setDc .unknown).raise .dcLineError e := by
  simp [State.callDc, ha]

/-- Settles O54: the step runs the entry, and its call succeeds or raises the error. -/
theorem rstEntryDrivesLine : Obligations.RstEntryDrivesLine := by
  intro s o k off v hm hs he
  rw [runningStepInterpretsTable s o k off _ hm hs he]
  constructor
  · intro ha
    exact congrArg Host.Outcome.next ((State.callRst_of_ok ha v).trans (State.advance_of_run hs))
  · intro e d ha
    exact congrArg Host.Outcome.next (State.callRst_of_err ha v)

/-- Settles O55: the step runs the entry, and its call succeeds or raises the error. -/
theorem dcEntryDrivesLine : Obligations.DcEntryDrivesLine := by
  intro s o k off v hm hs he
  rw [runningStepInterpretsTable s o k off _ hm hs he]
  constructor
  · intro ha
    exact congrArg Host.Outcome.next ((State.callDc_of_ok ha v).trans (State.advance_of_run hs))
  · intro e d ha
    exact congrArg Host.Outcome.next (State.callDc_of_err ha v)

/-! ### Who writes the planes and the rotation -/

/-- What each host request may do to the planes and the rotation (10_state.md R22 to R24). -/
inductive StoreEffect (s : State) : Instr → State → Prop where
  | kept (i : Instr) (t : State) (hb : t.black = s.black) (hr : t.red = s.red)
      (hrot : t.rot = s.rot) : StoreEffect s i t
  | fresh (t : State) : StoreEffect s .fbNew t
  | rotated (q : Rotation) (t : State) (hb : t.black = s.black) (hr : t.red = s.red) :
      StoreEffect s (.fbSetrot q) t
  | drawn (x y : Word) (c : BitVec 2) (t : State) (hrot : t.rot = s.rot) :
      StoreEffect s (.fbPixel x y c) t

theorem State.request_storeEffect {s : State} (hs : s.seq = .idle) (o : Opr) (i : Instr) :
    StoreEffect s i (s.request o) := by
  cases h : o.legalIn s.life with
  | true => exact s.request_legal hs h ▸ .kept i _ rfl rfl rfl
  | false => exact s.request_illegal hs h ▸ .kept i _ rfl rfl rfl

theorem exec_storeEffect {i : Instr} {s t : State} (hi : i.IsHost) (hs : s.seq = .idle)
    (h : exec i s = .next t) : StoreEffect s i t := by
  cases i with
  | epdInit => cases h; exact State.request_storeEffect hs _ _
  | epdUpdate => cases h; exact State.request_storeEffect hs _ _
  | epdPoweroff => cases h; exact State.request_storeEffect hs _ _
  | epdHwreset => cases h; exact State.request_storeEffect hs _ _
  | fbNew => exact .fresh t
  | fbSetrot q => cases h; simp only [State.whenIdle, hs]; exact .rotated q _ rfl rfl
  | fbPixel x y c =>
    cases h
    simp only [State.whenIdle, hs]
    cases colorOfCode c with
    | none => exact .kept _ _ rfl rfl rfl
    | some col => exact .drawn x y c _ (by simp)
  | fbRdbyte k p =>
    cases h
    simp only [State.whenIdle, hs]
    split <;> exact .kept _ _ rfl rfl rfl
  | clrTorgb c =>
    cases h
    simp only [State.whenIdle, hs]
    cases colorOfCode c <;> exact .kept _ _ rfl rfl rfl
  | fbGetrot | fbSize | clrFromrgb v | clrFrommono m =>
    cases h
    simp only [State.whenIdle, hs]
    exact .kept _ _ rfl rfl rfl
  | softReset | inputTemp | activeTemp | panelSetting | bufBlack | bufRed | powerOn | refresh
  | powerOff => cases hi

/-- A step that changes a plane or the rotation executes the request at the head of the port. -/
theorem step_changes_store {s t : State} (h : step s = .next t)
    (hne : t.black ≠ s.black ∨ t.red ≠ s.red ∨ t.rot ≠ s.rot) :
    s.seq = .idle ∧ ∃ r rest i, s.requests = r :: rest ∧ decodeRequest r = .ok i ∧
      StoreEffect (s.takeRequest rest) i t := by
  obtain ⟨-, hc⟩ := step_cases h
  cases hc with
  | waiting => simp at hne
  | rejected => simp at hne
  | taken hs r rest hr i hd _ he _ =>
    exact ⟨hs, r, rest, i, hr, hd, exec_storeEffect (decodeRequest_isHost hd) hs he⟩
  | running o k off hs e he =>
    have same := s.runEntry_sameStore e
    simp [same.black, same.red, same.rot] at hne

/-- Settles O20, by what each request may do to the store. -/
theorem onlyFbRequestsWriteStore : Obligations.OnlyFbRequestsWriteStore := by
  intro s t h
  constructor
  · intro hne
    obtain ⟨hs, r, rest, i, hr, hd, eff⟩ := step_changes_store h (by tauto)
    refine ⟨hs, r, rest, hr, ?_⟩
    cases eff with
    | kept _ _ hb hr => simp [hb, hr] at hne
    | fresh => exact .inl hd
    | rotated _ _ hb hr => simp [hb, hr] at hne
    | drawn x y c => exact .inr ⟨x, y, c, hd⟩
  · intro hne
    obtain ⟨hs, r, rest, i, hr, hd, eff⟩ := step_changes_store h (.inr (.inr hne))
    refine ⟨hs, r, rest, hr, ?_⟩
    cases eff with
    | kept _ _ _ _ hrot => exact absurd hrot hne
    | fresh => exact .inl hd
    | rotated q => exact .inr ⟨q, hd⟩
    | drawn _ _ _ _ hrot => exact absurd hrot hne

end Sys2Proof.Machine
end

/-! SUPPORT. Proofs for the statements of 20_memory.md: the address of a pixel, and the one bit of each
plane `FB.PIXEL` writes there. -/

section
namespace Sys2Proof.Machine

open Sys2Proof

/-! ### The address of a pixel -/

/-- The mask of a column is its bit alone, most significant first (20_memory.md R52, R53). -/
theorem bitMask_eq_twoPow (px : Nat) : bitMask px = BitVec.twoPow 8 (7 - px % 8) := rfl

theorem bitMask_getLsbD (px b : Nat) : (bitMask px).getLsbD b = decide (b = 7 - px % 8) := by
  have hlt : 7 - px % 8 < 8 := by omega
  rw [bitMask_eq_twoPow, BitVec.getLsbD_twoPow]
  simp [hlt, eq_comm]

/-- Two columns have one mask when they stand at the same place of their bytes (20_memory.md
R53). -/
theorem bitMask_inj {px px' : Nat} : bitMask px = bitMask px' ↔ px % 8 = px' % 8 := by
  constructor
  · intro h
    have hbit := bitMask_getLsbD px' (7 - px % 8)
    rw [← h, bitMask_getLsbD] at hbit
    have : 7 - px % 8 = 7 - px' % 8 := by simpa using hbit
    omega
  · intro h
    rw [bitMask, bitMask, h]

/-- The row of a pixel is the quotient of its byte index by the bytes of a row, and the byte of its
row the remainder (20_memory.md R54). -/
theorem byteIndex_div_mod {w px : Nat} (hw : w % 8 = 0) (hx : px < w) (py : Nat) :
    byteIndex w px py / (w / 8) = py ∧ byteIndex w px py % (w / 8) = px / 8 := by
  have hcol : px / 8 < w / 8 := by omega
  have hpos : 0 < w / 8 := by omega
  unfold byteIndex
  rw [Nat.mul_comm]
  constructor
  · rw [Nat.mul_add_div hpos, Nat.div_eq_of_lt hcol, Nat.add_zero]
  · rw [Nat.mul_add_mod, Nat.mod_eq_of_lt hcol]

/-- A pixel is found again from its byte index and its mask (20_memory.md R52). -/
theorem pixelAddress_injective {w px py px' py' : Nat} (hw : w % 8 = 0) (hx : px < w)
    (hx' : px' < w) (hi : byteIndex w px py = byteIndex w px' py')
    (hm : bitMask px = bitMask px') : px = px' ∧ py = py' := by
  obtain ⟨hrow, hbyte⟩ := byteIndex_div_mod hw hx py
  obtain ⟨hrow', hbyte'⟩ := byteIndex_div_mod hw hx' py'
  rw [hi] at hrow hbyte
  have hmod := bitMask_inj.1 hm
  exact ⟨by omega, hrow.symm.trans hrow'⟩

/-- Every bit of every byte of a plane is a pixel's (20_memory.md R52). -/
theorem pixelAddress_surjective {w h i b : Nat} (hw : w % 8 = 0) (hi : i < h * (w / 8))
    (hb : b < 8) :
    ∃ px py, px < w ∧ py < h ∧ byteIndex w px py = i ∧ bitMask px = BitVec.twoPow 8 b := by
  have hpos : 0 < w / 8 := Nat.pos_of_lt_mul_left hi
  have hbyte : i % (w / 8) < w / 8 := Nat.mod_lt i hpos
  have hcol : (8 * (i % (w / 8)) + (7 - b)) / 8 = i % (w / 8) := by omega
  have hplace : 7 - (8 * (i % (w / 8)) + (7 - b)) % 8 = b := by omega
  refine ⟨8 * (i % (w / 8)) + (7 - b), i / (w / 8), by omega, Nat.div_lt_of_lt_mul ?_, ?_, ?_⟩
  · rwa [Nat.mul_comm]
  · rw [byteIndex, hcol, Nat.div_add_mod']
  · rw [bitMask_eq_twoPow, hplace]

/-- Settles O36: a pixel is found again from its address, and a bit's address has a pixel. -/
theorem pixelAddressIsBijective : Obligations.PixelAddressIsBijective := by
  intro w h hw
  refine ⟨fun _ _ => rfl, bitMask_getLsbD, fun _ _ => byteIndex_lt hw, ?_, ?_⟩
  · intro px py px' py' hx _ hx' _ hi hm
    exact pixelAddress_injective hw hx hx' hi hm
  · intro i b hi hb
    exact pixelAddress_surjective hw hi hb

/-! ### A pixel inside the surface -/

/-- The rotation map takes the logical surface, and nothing else, onto the panel (41_framebuffer.md
R128, R131). -/
theorem onPanel_phys_iff (w h : Nat) (r : Rotation) (x y : Int) :
    OnPanel w h (phys w h r x y) ↔
      0 ≤ x ∧ x < (logicalSize w h r).1 ∧ 0 ≤ y ∧ y < (logicalSize w h r).2 := by
  cases r <;> simp only [OnPanel, phys, logicalSize] <;> omega

/-- A pixel write that is not clipped puts the colour at the pixel's address (41_framebuffer.md
R129). -/
theorem State.writePixel_of_cell {s : State} {x y : Int} {i : Nat} {m : Byte}
    (h : s.pixelCell x y = some (i, m)) (col : Color) : s.writePixel x y col = s.putPixel i m col := by
  rw [State.writePixel, h]

/-- A colour code is 3 or that of the colour whose plane bits are the code's bits (30_encoding.md
R73, 41_framebuffer.md R130). -/
theorem exists_colorOfCode_bits {c : BitVec 2} (h : c ≠ 3) :
    ∃ col, colorOfCode c = some col ∧ blackBit col = c.getLsbD 0 ∧ redBit col = c.getLsbD 1 := by
  have hcases : c = 0 ∨ c = 1 ∨ c = 2 := by revert c; decide
  obtain rfl | rfl | rfl := hcases
  · exact ⟨.white, by decide⟩
  · exact ⟨.black, by decide⟩
  · exact ⟨.red, by decide⟩

/-- `FB.PIXEL` of an idle block with a colour writes the pixel and completes (41_framebuffer.md
R129). -/
theorem exec_fbPixel_idle {s : State} (hs : s.seq = .idle) {c : BitVec 2} {col : Color}
    (hc : colorOfCode c = some col) (x y : Word) :
    exec (.fbPixel x y c) s = .next ((s.writePixel (coord x) (coord y) col).complete 0 0) := by
  refine congrArg Host.Outcome.next ((State.whenIdle_idle hs _).trans ?_)
  rw [hc]

@[simp] theorem State.complete_readByte (s : State) (r0 r1 : Word) (p : Plane) (i : Nat) :
    (s.complete r0 r1).readByte p i = s.readByte p i := by
  cases p <;> rfl

/-- Settles O33: the pixel is on the panel, so the request is one `putPixel`, read byte by byte. -/
theorem fbPixelWritesOneBit : Obligations.FbPixelWritesOneBit := by
  intro s x y c hs hmem hlegal hc hx0 hx hy0 hy q i m
  have hq : OnPanel s.params.w s.params.h q :=
    (onPanel_phys_iff _ _ _ _ _).2 ⟨hx0, hx, hy0, hy⟩
  have hcell : s.pixelCell (coord x) (coord y) = some (i, m) := if_pos hq
  have hi : i < s.params.n := State.pixelCell_lt hlegal.1 hcell
  obtain ⟨col, hcol, hblack, hred⟩ := exists_colorOfCode_bits hc
  refine ⟨(s.putPixel i m col).complete 0 0, ?_, hi, ?_, ?_, ?_, rfl⟩
  · rw [exec_fbPixel_idle hs hcol, State.writePixel_of_cell hcell]
  · simp [State.putPixel_read hmem, putBits, hblack]
  · simp [State.putPixel_read hmem, putBits, hred]
  · intro p j hj
    simp [State.putPixel_read hmem, hj]

end Sys2Proof.Machine
end

/-! SUPPORT. Proofs for the statements of 30_encoding.md: the request as a bit string, the two decoders
and their encodings, and the opcode table. -/

section
namespace Sys2Proof

open Sys2Proof.Machine

/-! ### A request as one bit string -/

theorem append_toNat {m n : Nat} (x : BitVec m) (y : BitVec n) :
    (x ++ y).toNat = x.toNat * 2 ^ n + y.toNat := by
  rw [BitVec.toNat_append, ← Nat.shiftLeft_add_eq_or_of_lt y.isLt, Nat.shiftLeft_eq]

/-- The fields of the bit string, as a number (30_encoding.md R89). -/
theorem Request.toBits_toNat (r : Request) :
    r.toBits.toNat =
      r.op.toNat * 2 ^ 88 + r.a.toNat * 2 ^ 56 + r.b.toNat * 2 ^ 24 + r.c.toNat := by
  simp only [Request.toBits, append_toNat]
  omega

@[simp] theorem Request.ofBits_toBits (r : Request) : Request.ofBits r.toBits = r := by
  have ha := r.a.isLt
  have hb := r.b.isLt
  have hc := r.c.isLt
  have ho := r.op.isLt
  obtain ⟨op, a, b, c⟩ := r
  simp only [Request.ofBits, Request.mk.injEq, ← BitVec.toNat_inj, BitVec.extractLsb'_toNat,
    Nat.shiftRight_eq_div_pow, Request.toBits_toNat]
  omega

theorem Request.toBits_ofBits (v : BitVec 96) : (Request.ofBits v).toBits = v := by
  have hv := v.isLt
  rw [← BitVec.toNat_inj, Request.toBits_toNat]
  simp only [Request.ofBits, BitVec.extractLsb'_toNat, Nat.shiftRight_eq_div_pow]
  omega

theorem Request.toBits_inj {r q : Request} : r.toBits = q.toBits ↔ r = q :=
  ⟨fun h => by rw [← r.ofBits_toBits, h, Request.ofBits_toBits], congrArg _⟩

/-! ### Operand fields -/

/-- A field has no bit from `k` up exactly when it is its low `k` bits, zero-extended. -/
theorem ushiftRight_eq_zero_iff_setWidth {w : Nat} (x : BitVec w) (k : Nat) :
    x >>> k = 0#w ↔ (x.extractLsb' 0 k).setWidth w = x := by
  have hx : x.toNat % 2 ^ k % 2 ^ w = x.toNat % 2 ^ k :=
    Nat.mod_eq_of_lt ((Nat.mod_le _ _).trans_lt x.isLt)
  simp [← BitVec.toNat_inj, Nat.shiftRight_eq_div_pow, hx, Nat.mod_eq_iff_lt]

/-- The low bits of a field that an operand was put into are the operand. -/
theorem extractLsb'_setWidth_self {w k : Nat} (x : BitVec k) (h : k ≤ w) :
    (x.setWidth w).extractLsb' 0 k = x := by
  rw [BitVec.extractLsb'_setWidth_of_le (by omega), BitVec.extractLsb'_eq_self]

/-- A field that an operand was put into has no bit above the operand. -/
theorem setWidth_ushiftRight_self {w k : Nat} (x : BitVec k) (h : k ≤ w) :
    x.setWidth w >>> k = 0#w := by
  rw [ushiftRight_eq_zero_iff_setWidth, extractLsb'_setWidth_self x h]

/-- A field is zero under the mask of its bits from `k` up exactly when it has none of them. -/
theorem and_highMask_eq_zero_iff {w : Nat} (x : BitVec w) (k : Nat) :
    x &&& (BitVec.allOnes w <<< k) = 0#w ↔ x >>> k = 0#w := by
  have hx : x.toNat / 2 ^ k * 2 ^ k % 2 ^ w = x.toNat / 2 ^ k * 2 ^ k :=
    Nat.mod_eq_of_lt ((Nat.div_mul_le_self _ _).trans_lt x.isLt)
  rw [← BitVec.shiftLeft_ushiftRight]
  simp [← BitVec.toNat_inj, Nat.shiftRight_eq_div_pow, Nat.shiftLeft_eq, hx]

@[simp] theorem Rotation.ofCode_code (r : Rotation) : Rotation.ofCode r.code = r := by
  cases r <;> rfl

@[simp] theorem Rotation.code_ofCode (c : BitVec 2) : (Rotation.ofCode c).code = c := by
  revert c; decide

@[simp] theorem Plane.ofCode_code (p : Plane) : Plane.ofCode p.code = p := by
  cases p <;> rfl

@[simp] theorem Plane.code_ofCode (c : BitVec 1) : (Plane.ofCode c).code = c := by
  revert c; decide

@[simp] theorem Mono.ofCode_code (m : Mono) : Mono.ofCode m.code = m := by
  cases m <;> rfl

@[simp] theorem Mono.code_ofCode (c : BitVec 1) : (Mono.ofCode c).code = c := by
  revert c; decide

/-! ### Host requests -/

theorem Request.noOperands_iff (r : Request) :
    r.noOperands = true ↔ r.a = 0 ∧ r.b = 0 ∧ r.c = 0 := decide_eq_true_iff

theorem Request.onlyLowC_iff (r : Request) (k : Nat) :
    r.onlyLowC k = true ↔ r.a = 0 ∧ r.b = 0 ∧ r.c >>> k = 0 := decide_eq_true_iff

/-- A request without operands is its `OP` alone. -/
theorem bareRequest_eq {r : Request} {op : Byte} (hop : r.op = op) (hz : r.noOperands = true) :
    bareRequest op = .request r := by
  obtain ⟨ha, hb, hc⟩ := r.noOperands_iff.1 hz
  cases r
  subst hop ha hb hc
  rfl

/-- A request with `k` operand bits in `C` is its `OP` and those bits. -/
theorem cRequest_eq {r : Request} {op : Byte} {k : Nat} (hop : r.op = op)
    (hz : r.onlyLowC k = true) :
    cRequest op ((r.c.extractLsb' 0 k).setWidth 24) = .request r := by
  obtain ⟨ha, hb, hc⟩ := (r.onlyLowC_iff k).1 hz
  rw [(ushiftRight_eq_zero_iff_setWidth r.c k).1 hc]
  cases r
  subst hop ha hb
  rfl

/-- The encoding of what a request decodes to is that request: no bit of it is ignored
(30_encoding.md R71, R72). -/
theorem encode_of_decodeRequest {r : Request} {i : Instr} (h : decodeRequest r = .ok i)
    (opc : OpcMap) (black red : List Byte) : encode opc black red i = .request r := by
  unfold decodeRequest at h
  iterate 5
    rcases decodeRow_ok h with ⟨hop, hz, rfl⟩ | ⟨-, h⟩
    · exact bareRequest_eq hop hz
  rcases decodeRow_ok h with ⟨hop, hz, rfl⟩ | ⟨-, h⟩
  · rw [encode, Rotation.code_ofCode]
    exact cRequest_eq hop hz
  iterate 2
    rcases decodeRow_ok h with ⟨hop, hz, rfl⟩ | ⟨-, h⟩
    · exact bareRequest_eq hop hz
  rcases decodeRow_ok h with ⟨hop, hz, rfl⟩ | ⟨-, h⟩
  · rw [encode, (ushiftRight_eq_zero_iff_setWidth r.c 2).1 (decide_eq_true_iff.1 hz), ← hop]
  rcases decodeRow_ok h with ⟨hop, hz, rfl⟩ | ⟨-, h⟩
  · obtain ⟨hb, hc⟩ := decide_eq_true_iff.1 hz
    rw [encode, Plane.code_ofCode, (ushiftRight_eq_zero_iff_setWidth r.c 1).1 hc, ← hop, ← hb]
  rcases decodeRow_ok h with ⟨hop, hz, rfl⟩ | ⟨-, h⟩
  · exact cRequest_eq hop hz
  rcases decodeRow_ok h with ⟨hop, hz, rfl⟩ | ⟨-, h⟩
  · obtain ⟨ha, hb⟩ := decide_eq_true_iff.1 hz
    cases r
    subst hop ha hb
    rfl
  rcases decodeRow_ok h with ⟨hop, hz, rfl⟩ | ⟨-, h⟩
  · rw [encode, Mono.code_ofCode]
    exact cRequest_eq hop hz
  cases h

theorem orReserved_of_true {b : Bool} (h : b = true) (i : Instr) : orReserved b i = .ok i := by
  rw [h]; rfl

/-- A host request decodes to the instruction it encodes (30_encoding.md R77). -/
theorem decode_encode_host {i : Instr} (hi : i.IsHost) (opc : OpcMap) (black red : List Byte) :
    decode opc (encode opc black red i) = some i := by
  suffices h : ∃ r, encode opc black red i = .request r ∧ decodeRequest r = .ok i by
    obtain ⟨r, henc, hdec⟩ := h
    rw [henc, decode, hdec]
    rfl
  cases i with
  | epdInit | epdUpdate | epdPoweroff | epdHwreset | fbNew | fbGetrot | fbSize =>
    exact ⟨_, rfl, rfl⟩
  | fbSetrot r => exact ⟨_, rfl, by cases r <;> rfl⟩
  | fbPixel x y c =>
    refine ⟨_, rfl, (orReserved_of_true ?_ _).trans ?_⟩
    · exact decide_eq_true (setWidth_ushiftRight_self c (by omega))
    · rw [extractLsb'_setWidth_self c (by omega)]
  | fbRdbyte k p =>
    refine ⟨_, rfl, (orReserved_of_true ?_ _).trans ?_⟩
    · exact decide_eq_true ⟨rfl, setWidth_ushiftRight_self p.code (by omega)⟩
    · rw [extractLsb'_setWidth_self p.code (by omega), Plane.ofCode_code]
  | clrTorgb c =>
    refine ⟨_, rfl, (orReserved_of_true ?_ _).trans ?_⟩
    · exact decide_eq_true ⟨rfl, rfl, setWidth_ushiftRight_self c (by omega)⟩
    · rw [extractLsb'_setWidth_self c (by omega)]
  | clrFromrgb v => exact ⟨_, rfl, rfl⟩
  | clrFrommono m => exact ⟨_, rfl, by cases m <;> rfl⟩
  | softReset | inputTemp | activeTemp | panelSetting | bufBlack | bufRed | powerOn | refresh
  | powerOff => cases hi

/-! ### Panel frames -/

theorem encode_frame (opc : OpcMap) (black red : List Byte) (f : Frame) :
    encode opc black red f.instr = f.encode opc black red := by
  cases f <;> rfl

/-- An opcode of `OPC` is none of the three the source assigns (00_scope.md R8, 30_encoding.md R83). -/
theorem openOpcode_ne {b : Byte} (h : b ∈ openOpcodes) : b ≠ 0x00 ∧ b ≠ 0xE5 ∧ b ≠ 0xE0 := by
  revert b; decide

/-- Past the opcodes the source assigns, the frame decoder goes by `OPC` (30_encoding.md R83). -/
theorem decodeFrame_open {op : Byte} (h : op ∈ openOpcodes) (opc : OpcMap) (p : List Byte) :
    decodeFrame opc (op :: p) =
      if op = opc.bufBlack then orPayload (!p.isEmpty) .bufBlack
      else if op = opc.bufRed then orPayload (!p.isEmpty) .bufRed
      else if op = opc.powerOn then orPayload (decide (p = [0x00])) .powerOn
      else if op = opc.refresh then orPayload (decide (p = [0x00])) .refresh
      else if op = opc.powerOff then orPayload (decide (p = [0x00])) .powerOff
      else .error .unknownOpcode := by
  obtain ⟨h0, hE5, hE0⟩ := openOpcode_ne h
  rw [decodeFrame, if_neg h0, if_neg hE5, if_neg hE0]

/-- The bytes of a frame decode to the frame (30_encoding.md R83, R84). -/
theorem decodeFrame_encode {opc : OpcMap} (hopc : opc.Legal) {black red : List Byte}
    (hb : black ≠ []) (hr : red ≠ []) (f : Frame) :
    decodeFrame opc (f.opcode opc :: f.payloadOf black red) = .ok f.instr := by
  have hdiff : opc.codes.reverse.Nodup := List.nodup_reverse.2 hopc.1
  simp only [OpcMap.codes, List.reverse_cons, List.reverse_nil, List.nil_append, List.cons_append,
    List.nodup_cons, List.mem_cons, not_or] at hdiff
  have hopen : ∀ op ∈ opc.codes, op ∈ openOpcodes := hopc.2
  cases f with
  | softReset | inputTemp | activeTemp | panelSetting => rfl
  | bufBlack | bufRed | powerOn | refresh | powerOff =>
    rw [decodeFrame_open (hopen _ (by simp [Frame.opcode, OpcMap.codes]))]
    simp [Frame.opcode, Frame.payloadOf, orPayload, Frame.instr, *]

theorem orPayload_ok {b : Bool} {i j : Instr} (h : orPayload b i = .ok j) : b = true ∧ i = j := by
  cases b <;> simp_all [orPayload]

/-- One row of the frame decoder: the bytes have this row's opcode and payload, or they are another
row's. -/
theorem frameRow_ok {q : Prop} [Decidable q] {b : Bool} {i j : Instr}
    {rest : Except FrameReject Instr} (h : (if q then orPayload b i else rest) = .ok j) :
    (q ∧ b = true ∧ i = j) ∨ (¬ q ∧ rest = .ok j) := by
  by_cases hq : q
  · rw [if_pos hq] at h
    exact .inl ⟨hq, orPayload_ok h⟩
  · rw [if_neg hq] at h
    exact .inr ⟨hq, h⟩

/-- What decodes as a frame is the frame's opcode and its payload (30_encoding.md R83, R86). -/
theorem encode_of_decodeFrame {opc : OpcMap} {bytes : List Byte} {i : Instr}
    (h : decodeFrame opc bytes = .ok i) :
    ∃ black red, black ≠ [] ∧ red ≠ [] ∧ encode opc black red i = .frame bytes := by
  have hne : ([0x00] : List Byte) ≠ [] := List.cons_ne_nil _ _
  have constant (f : Frame) (hi : f.instr = i)
      (hp : bytes = f.opcode opc :: f.payloadOf [0x00] [0x00]) :
      ∃ black red, black ≠ [] ∧ red ≠ [] ∧ encode opc black red i = .frame bytes :=
    ⟨_, _, hne, hne, by rw [← hi, encode_frame, hp, Frame.encode]⟩
  cases bytes with
  | nil => cases h
  | cons op p =>
    by_cases hop : op = 0x00
    · rw [decodeFrame, if_pos hop] at h
      by_cases hp : p = [0x0E]
      · rw [if_pos hp] at h
        exact constant .softReset (Except.ok.inj h) (by rw [hop, hp]; rfl)
      · rw [if_neg hp] at h
        obtain ⟨hp, rfl⟩ := orPayload_ok h
        exact constant .panelSetting rfl (by rw [hop, of_decide_eq_true hp]; rfl)
    · rw [decodeFrame, if_neg hop] at h
      rcases frameRow_ok h with ⟨hop, hp, rfl⟩ | ⟨-, h⟩
      · exact constant .inputTemp rfl (by rw [hop, of_decide_eq_true hp]; rfl)
      rcases frameRow_ok h with ⟨hop, hp, rfl⟩ | ⟨-, h⟩
      · exact constant .activeTemp rfl (by rw [hop, of_decide_eq_true hp]; rfl)
      rcases frameRow_ok h with ⟨hop, hp, rfl⟩ | ⟨-, h⟩
      · exact ⟨p, [0x00], by simpa using hp, hne, by rw [hop]; rfl⟩
      rcases frameRow_ok h with ⟨hop, hp, rfl⟩ | ⟨-, h⟩
      · exact ⟨[0x00], p, hne, by simpa using hp, by rw [hop]; rfl⟩
      rcases frameRow_ok h with ⟨hop, hp, rfl⟩ | ⟨-, h⟩
      · exact constant .powerOn rfl (by rw [hop, of_decide_eq_true hp]; rfl)
      rcases frameRow_ok h with ⟨hop, hp, rfl⟩ | ⟨-, h⟩
      · exact constant .refresh rfl (by rw [hop, of_decide_eq_true hp]; rfl)
      rcases frameRow_ok h with ⟨hop, hp, rfl⟩ | ⟨-, h⟩
      · exact constant .powerOff rfl (by rw [hop, of_decide_eq_true hp]; rfl)
      cases h

/-- An instruction is a host request or the emission of a frame. -/
theorem Instr.isHost_or_frame (i : Instr) : i.IsHost ∨ ∃ f : Frame, i = f.instr := by
  cases i with
  | softReset => exact .inr ⟨.softReset, rfl⟩
  | inputTemp => exact .inr ⟨.inputTemp, rfl⟩
  | activeTemp => exact .inr ⟨.activeTemp, rfl⟩
  | panelSetting => exact .inr ⟨.panelSetting, rfl⟩
  | bufBlack => exact .inr ⟨.bufBlack, rfl⟩
  | bufRed => exact .inr ⟨.bufRed, rfl⟩
  | powerOn => exact .inr ⟨.powerOn, rfl⟩
  | refresh => exact .inr ⟨.refresh, rfl⟩
  | powerOff => exact .inr ⟨.powerOff, rfl⟩
  | _ => exact .inl rfl

/-- Settles O2: host requests and frames are decoded from their encodings, and the bit string of a
request is its fields in order. -/
theorem decodeOfEncodeIsIdentity : Obligations.DecodeOfEncodeIsIdentity := by
  refine ⟨?_, fun r => ⟨r.ofBits_toBits, r.toBits_toNat⟩, Request.toBits_ofBits⟩
  intro opc black red i hopc hb hr
  obtain hi | ⟨f, rfl⟩ := i.isHost_or_frame
  · exact decode_encode_host hi opc black red
  · rw [encode_frame, Frame.encode, decode, decodeFrame_encode hopc hb hr]
    rfl

/-- Settles O3: each row of either decoder pins every bit the encoding does not carry. -/
theorem encodeOfDecodeIsIdentity : Obligations.EncodeOfDecodeIsIdentity := by
  intro opc enc i h
  cases enc with
  | request r =>
    have hd : decodeRequest r = .ok i := by
      cases hd : decodeRequest r <;> simp_all [decode, Except.toOption]
    exact ⟨[0x00], [0x00], List.cons_ne_nil _ _, List.cons_ne_nil _ _,
      encode_of_decodeRequest hd opc _ _⟩
  | frame bytes =>
    refine encode_of_decodeFrame ?_
    cases hd : decodeFrame opc bytes <;> simp_all [decode, Except.toOption]

/-! ### The opcode table -/

/-- A mask that pins `OP` keeps it, and masks each operand by its own part. -/
theorem Request.toBits_and_mask (r : Request) {mask : Request} (h : mask.op = 0xFF) :
    r.toBits &&& mask.toBits =
      Request.toBits
        { op := r.op, a := r.a &&& mask.a, b := r.b &&& mask.b, c := r.c &&& mask.c } := by
  have hop : r.op &&& mask.op = r.op := h ▸ BitVec.and_allOnes
  have happ : (r.op ++ r.a ++ r.b ++ r.c) &&& (mask.op ++ mask.a ++ mask.b ++ mask.c) =
      r.op ++ (r.a &&& mask.a) ++ (r.b &&& mask.b) ++ (r.c &&& mask.c) := by
    rw [BitVec.and_append, BitVec.and_append, BitVec.and_append, hop]
  exact happ

/-- A request matches a row whose mask pins `OP` when it has the row's `OP` and each operand is zero
under its part of the mask. -/
theorem Request.matchesRow_iff (r : Request) (op : Byte) {mask : Request} (h : mask.op = 0xFF) :
    r.MatchesRow (op, mask.toBits) ↔
      r.op = op ∧ r.a &&& mask.a = 0 ∧ r.b &&& mask.b = 0 ∧ r.c &&& mask.c = 0 := by
  have hrow : op ++ (0 : BitVec 88) = Request.toBits { op := op, a := 0, b := 0, c := 0 } := by
    rw [← BitVec.toNat_inj, append_toNat, Request.toBits_toNat]
    simp
  rw [Request.MatchesRow, r.toBits_and_mask h, hrow, Request.toBits_inj, Request.mk.injEq]

/-- How the decoder meets a row of the table whose `OP` the request has: it decodes when it matches,
and else a reserved bit refuses it (30_encoding.md R72). -/
inductive FollowsRow (r : Request) (row : Byte × BitVec 96) : Prop where
  | decodes (i : Instr) (hm : r.MatchesRow row) (hd : decodeRequest r = .ok i)
  | reserved (hm : ¬ r.MatchesRow row) (hd : decodeRequest r = .error .reservedOperand)

/-- The decoder's check of the reserved bits is the row's mask of the operands. -/
theorem followsRow_of_check {op : Byte} {a b : Word} {c : U24} {check : Bool} {i : Instr}
    (ma mb : Word) (mc : U24) (hd : decodeRequest ⟨op, a, b, c⟩ = orReserved check i)
    (hcheck : check = true ↔ a &&& ma = 0 ∧ b &&& mb = 0 ∧ c &&& mc = 0) :
    FollowsRow ⟨op, a, b, c⟩ (op, Request.toBits ⟨0xFF, ma, mb, mc⟩) := by
  have hm : Request.MatchesRow ⟨op, a, b, c⟩ (op, Request.toBits ⟨0xFF, ma, mb, mc⟩) ↔
      check = true := by
    rw [Request.matchesRow_iff _ _ rfl, hcheck]
    exact and_iff_right rfl
  cases check with
  | true => exact .decodes i (hm.2 rfl) hd
  | false => exact .reserved (fun h => Bool.false_ne_true (hm.1 h)) hd

/-- The row of an operation without operands. -/
theorem followsRow_bare {op : Byte} {a b : Word} {c : U24} {i : Instr}
    (hd : decodeRequest ⟨op, a, b, c⟩ = orReserved (Request.noOperands ⟨op, a, b, c⟩) i) :
    FollowsRow ⟨op, a, b, c⟩ (op, 0xFFFFFFFFFFFFFFFFFFFFFFFF) :=
  followsRow_of_check (BitVec.allOnes 32) (BitVec.allOnes 32) (BitVec.allOnes 24) hd
    (by simp only [BitVec.and_allOnes, Request.noOperands_iff])

/-- The row of an operation with `k` operand bits in `C` and no others. -/
theorem followsRow_onlyLowC {op : Byte} {a b : Word} {c : U24} {i : Instr} {k : Nat}
    (hd : decodeRequest ⟨op, a, b, c⟩ = orReserved (Request.onlyLowC ⟨op, a, b, c⟩ k) i) :
    FollowsRow ⟨op, a, b, c⟩ (op, Request.toBits
      ⟨0xFF, BitVec.allOnes 32, BitVec.allOnes 32, BitVec.allOnes 24 <<< k⟩) :=
  followsRow_of_check _ _ _ hd
    (by simp only [BitVec.ofNat_eq_ofNat, BitVec.and_allOnes, and_highMask_eq_zero_iff,
      Request.onlyLowC_iff])

/-- The decoder follows the row of the table that has the request's `OP`. -/
theorem followsRow_of_op {r : Request} {row : Byte × BitVec 96} (h : row ∈ requestRows)
    (hop : r.op = row.1) : FollowsRow r row := by
  obtain ⟨op, a, b, c⟩ := r
  subst hop
  revert row
  simp only [requestRows, List.cons_append, List.nil_append, List.forall_mem_cons]
  refine ⟨?_, ?_, ?_, ?_, ?_, ?setrot, ?_, ?_, ?pixel, ?rdbyte, ?torgb, ?fromrgb, ?frommono, nofun⟩
  case setrot | torgb => exact followsRow_onlyLowC (k := 2) rfl
  case frommono => exact followsRow_onlyLowC (k := 1) rfl
  case pixel =>
    refine followsRow_of_check 0#32 0#32 (BitVec.allOnes 24 <<< 2) rfl ?_
    simp only [decide_eq_true_iff, BitVec.and_zero, and_highMask_eq_zero_iff,
      BitVec.ofNat_eq_ofNat, true_and]
  case rdbyte =>
    refine followsRow_of_check 0#32 (BitVec.allOnes 32) (BitVec.allOnes 24 <<< 1) rfl ?_
    simp only [decide_eq_true_iff, BitVec.and_zero, BitVec.and_allOnes, and_highMask_eq_zero_iff,
      BitVec.ofNat_eq_ofNat, true_and]
  case fromrgb =>
    refine followsRow_of_check (BitVec.allOnes 32) (BitVec.allOnes 32) 0#24 rfl ?_
    simp only [decide_eq_true_iff, BitVec.and_zero, BitVec.and_allOnes, BitVec.ofNat_eq_ofNat,
      and_true]
  all_goals exact followsRow_bare rfl

/-- An `OP` in no row is refused as unassigned (30_encoding.md R87). -/
theorem decodeRequest_unassigned {r : Request} (h : ∀ row ∈ requestRows, r.op ≠ row.1) :
    decodeRequest r = .error .unassignedOp := by
  simp only [requestRows, List.cons_append, List.nil_append, List.forall_mem_cons, ne_eq] at h
  simp only [decodeRequest, h, if_false]

theorem requestRows_pin_op : ∀ row ∈ requestRows, (Request.ofBits row.2).op = 0xFF := by
  simp only [requestRows, List.cons_append, List.nil_append, List.forall_mem_cons]
  refine ⟨rfl, rfl, rfl, rfl, rfl, rfl, rfl, rfl, rfl, rfl, rfl, rfl, rfl, nofun⟩

/-- A request that matches a row has its `OP`, which every row's mask pins. -/
theorem Request.MatchesRow.op_eq {r : Request} {row : Byte × BitVec 96} (hm : r.MatchesRow row)
    (h : row ∈ requestRows) : r.op = row.1 := by
  obtain ⟨op, mask⟩ := row
  rw [← Request.toBits_ofBits mask] at hm
  exact ((r.matchesRow_iff op (requestRows_pin_op _ h)).1 hm).1

/-- A request has the `OP` of a row, which the decoder follows, or of none. -/
theorem followsRow_or_unassigned (r : Request) :
    (∃ row ∈ requestRows, r.op = row.1 ∧ FollowsRow r row) ∨
      (∀ row ∈ requestRows, r.op ≠ row.1) ∧ decodeRequest r = .error .unassignedOp := by
  by_cases h : ∃ row ∈ requestRows, r.op = row.1
  · obtain ⟨row, hmem, hop⟩ := h
    exact .inl ⟨row, hmem, hop, followsRow_of_op hmem hop⟩
  · have hno : ∀ row ∈ requestRows, r.op ≠ row.1 := fun row hmem hop => h ⟨row, hmem, hop⟩
    exact .inr ⟨hno, decodeRequest_unassigned hno⟩

/-- Settles O4: the decoder follows the row with the request's `OP`, and there may be none. -/
theorem decoderFollowsOpcodeTable : Obligations.DecoderFollowsOpcodeTable := by
  intro r
  refine ⟨⟨?_, ?_⟩, ⟨?_, decodeRequest_unassigned⟩, ⟨?_, ?_⟩⟩
  · rintro ⟨i, hd⟩
    obtain ⟨row, hmem, -, ⟨_, hm, _⟩ | ⟨-, hd'⟩⟩ | ⟨-, hd'⟩ := followsRow_or_unassigned r
    · exact ⟨row, hmem, hm⟩
    · cases hd.symm.trans hd'
    · cases hd.symm.trans hd'
  · rintro ⟨row, hmem, hm⟩
    cases followsRow_of_op hmem (hm.op_eq hmem) with
    | decodes i _ hd => exact ⟨i, hd⟩
    | reserved hno => exact absurd hm hno
  · intro hd row hmem hop
    cases followsRow_of_op hmem hop with
    | decodes i _ hd' => cases hd.symm.trans hd'
    | reserved _ hd' => cases hd.symm.trans hd'
  · intro hd
    obtain ⟨row, hmem, hop, ⟨_, _, hd'⟩ | ⟨hm, -⟩⟩ | ⟨-, hd'⟩ := followsRow_or_unassigned r
    · cases hd.symm.trans hd'
    · exact ⟨row, hmem, hop, hm⟩
    · cases hd.symm.trans hd'
  · rintro ⟨row, hmem, hop, hno⟩
    cases followsRow_of_op hmem hop with
    | decodes i hm => exact absurd hm hno
    | reserved _ hd => exact hd

/-- Settles O1: the decoder is run on each word. -/
theorem sampleWordsDecode : Obligations.SampleWordsDecode := by
  unfold Obligations.SampleWordsDecode
  decide

end Sys2Proof
end

/-! SUPPORT. Proofs for the statements of 30_encoding.md: what an idle block answers and refuses, and the
frames on the bus. -/

section
namespace Sys2Proof.Machine

open Sys2Proof

/-! ### What an idle block answers -/

theorem exec_clrTorgb_code3 {s : State} (hs : s.seq = .idle) :
    exec (.clrTorgb 3) s = .next (s.refuse .reservedColor) :=
  congrArg Host.Outcome.next (State.whenIdle_idle hs _)

/-- `CLR.TORGB` of an idle block with a colour completes (40_color.md R101). -/
theorem exec_clrTorgb_idle {s : State} (hs : s.seq = .idle) {c : BitVec 2} {col : Color}
    (hc : colorOfCode c = some col) :
    exec (.clrTorgb c) s = .next (s.complete ((toRgb col).setWidth 32) 0) := by
  refine congrArg Host.Outcome.next ((State.whenIdle_idle hs _).trans ?_)
  rw [hc]

theorem exec_fbPixel_code3 {s : State} (hs : s.seq = .idle) (x y : Word) :
    exec (.fbPixel x y 3) s = .next (s.refuse .reservedColor) :=
  congrArg Host.Outcome.next (State.whenIdle_idle hs _)

theorem exec_fbRdbyte_idle {s : State} (hs : s.seq = .idle) (i : Word) (p : Plane) :
    exec (.fbRdbyte i p) s =
      .next (if i.toNat < s.params.n then s.complete ((s.readByte p i.toNat).setWidth 32) 0
        else s.refuse .indexOutOfRange) :=
  congrArg Host.Outcome.next (State.whenIdle_idle hs _)

/-- Settles O28, by the colour of each monochrome value. -/
theorem clrFrommonoAnswersColour : Obligations.ClrFrommonoAnswersColour := by
  intro s hs
  have answers : ∀ m, exec (.clrFrommono m) s =
      .next (s.complete (colorResult (fromMonochrome m)) 0) :=
    fun m => congrArg Host.Outcome.next (State.whenIdle_idle hs _)
  exact ⟨answers .on, answers .off⟩

/-- Settles O31: each request completes, `FB.SETROT` after writing ROT. -/
theorem fbRotationWrittenAndRead : Obligations.FbRotationWrittenAndRead := by
  intro s hs
  constructor
  · intro r
    exact congrArg Host.Outcome.next (State.whenIdle_idle hs _)
  · refine congrArg Host.Outcome.next ((State.whenIdle_idle hs _).trans ?_)
    refine congrArg (s.complete · 0) ?_
    cases s.rot <;> rfl

/-- Settles O40: the index is inside the plane, so the request completes with the byte there. -/
theorem fbRdbyteAnswersByte : Obligations.FbRdbyteAnswersByte := by
  intro s i p hs hi
  refine ⟨(s.readByte p i.toNat).setWidth 32, ?_, ?_⟩
  · rw [exec_fbRdbyte_idle hs, if_pos hi]
    rfl
  · rw [BitVec.toNat_setWidth_of_le (by omega)]
    cases p <;> rfl

/-- Settles O32: a legal dimension fits a result word. -/
theorem fbSizeAnswersLogicalSize : Obligations.FbSizeAnswersLogicalSize := by
  intro s hs hlegal
  obtain ⟨-, -, -, hw, hh, -⟩ := hlegal
  have hword : ∀ n : Nat, n ≤ 2 ^ 31 - 1 → (BitVec.ofNat 32 n).toNat = n :=
    fun n hn => Nat.mod_eq_of_lt (by omega)
  refine ⟨_, _, congrArg Host.Outcome.next (State.whenIdle_idle hs _), ?_, ?_⟩
  · rintro (hr | hr) <;> rw [hr] <;> exact ⟨hword _ hw, hword _ hh⟩
  · rintro (hr | hr) <;> rw [hr] <;> exact ⟨hword _ hh, hword _ hw⟩

/-- The channels of an RGB24 value as numbers (30_encoding.md R74). -/
theorem rgb_channels (v : U24) :
    rgbRed v = v.toNat / 65536 % 256 ∧ rgbGreen v = v.toNat / 256 % 256 ∧
      rgbBlue v = v.toNat % 256 := by
  simp [rgbRed, rgbGreen, rgbBlue, Nat.shiftRight_eq_div_pow]

/-- The code of a classifier's colour (40_color.md R104 L3). -/
theorem colorResult_classifyBy (chroma redness redThreshold brightness halfScale : Int) :
    colorResult (classifyBy chroma redness redThreshold brightness halfScale) =
      if redThreshold < chroma ∧ redThreshold < redness then 2
      else if halfScale < brightness then 0 else 1 := by
  unfold classifyBy
  split_ifs <;> rfl

/-- Settles O26: the default classifier is the spec's formulas over the three channels. -/
theorem clrFromrgbClassifies : Obligations.ClrFromrgbClassifies := by
  intro s v hs hclass r g b code
  obtain ⟨hr, hg, hb⟩ := rgb_channels v
  have hcode : colorResult (classifyStd v) = code := by
    rw [classifyStd, colorResult_classifyBy, stdChroma, stdRedness, hr, hg, hb, max_assoc,
      min_assoc]
  rw [exec_clrFromrgb_idle hs, hclass, classifyRgb, hcode]
  rfl

/-! ### `FB.PIXEL` twice -/

/-- Of two writes to one byte of a canonical plane the second one stays. -/
theorem Mem.write_write {m : Mem} (w : Mem.wf m = true) (i : Nat) (u v : Byte) :
    Mem.write (Mem.write m i u) i v = Mem.write m i v := by
  have wu : Mem.wf (Mem.write m i u) = true := Mem.wf_write w
  refine Mem.ext_of_read (Mem.wf_write wu) (Mem.wf_write w) fun j => ?_
  by_cases hj : j = i
  · rw [hj, Mem.read_write_same wu, Mem.read_write_same w]
  · simp only [Mem.read_write_other _ hj]

/-- Of two colours put on one pixel the second one stays (41_framebuffer.md R129). -/
theorem State.putPixel_putPixel {s : State} (h : MemOk s) (i : Nat) (m : Byte) (c d : Color) :
    (s.putPixel i m c).putPixel i m d = s.putPixel i m d := by
  obtain ⟨hb, hr, -⟩ := h
  simp only [State.putPixel, Mem.read_write_same hb, Mem.read_write_same hr, putBits_putBits,
    Mem.write_write hb, Mem.write_write hr]

/-- A pixel's place depends on the geometry and the rotation alone (41_framebuffer.md R128). -/
theorem State.pixelCell_congr {s t : State} (hp : t.params = s.params) (hr : t.rot = s.rot)
    (x y : Int) : t.pixelCell x y = s.pixelCell x y := by
  simp only [State.pixelCell, hp, hr]

/-- Of two pixel writes at one coordinate the second one stays (41_framebuffer.md R129, R131). -/
theorem State.writePixel_writePixel {s : State} (h : MemOk s) (x y : Int) (c d : Color) :
    (s.writePixel x y c).writePixel x y d = s.writePixel x y d := by
  have hcell := State.pixelCell_congr (s.writePixel_params x y c) (s.writePixel_rot x y c) x y
  cases hq : s.pixelCell x y with
  | none => simp [State.writePixel, hq]
  | some q =>
    obtain ⟨i, m⟩ := q
    rw [State.writePixel_of_cell (hcell.trans hq), State.writePixel_of_cell hq,
      State.writePixel_of_cell hq, State.putPixel_putPixel h]

/-- A pixel write and the response to it touch different fields. -/
theorem State.complete_writePixel (s : State) (r0 r1 : Word) (x y : Int) (c : Color) :
    (s.complete r0 r1).writePixel x y c = (s.writePixel x y c).complete r0 r1 := by
  have hcell : (s.complete r0 r1).pixelCell x y = s.pixelCell x y := rfl
  cases hq : s.pixelCell x y with
  | none => simp only [State.writePixel, hcell, hq]
  | some q =>
    rw [State.writePixel_of_cell (hcell.trans hq), State.writePixel_of_cell hq]
    rfl

/-- Settles O38: the request is one pixel write and its response, and the second of two pixel writes
stays. -/
theorem fbPixelIsIdempotent : Obligations.FbPixelIsIdempotent := by
  intro s x y c col hs hmem _ hcol sx sy t
  have hcode : colorOfCode c = some col := by
    simp only [List.mem_cons, Prod.mk.injEq, List.not_mem_nil, or_false] at hcol
    obtain ⟨rfl, rfl⟩ | ⟨rfl, rfl⟩ | ⟨rfl, rfl⟩ := hcol <;> rfl
  have hx : coord x = sx := coord_eq x
  have hy : coord y = sy := coord_eq y
  have ht : t = (s.writePixel sx sy col).complete 0 0 := rfl
  have hts : t.seq = .idle := (s.writePixel_seq sx sy col).trans hs
  constructor
  · rw [exec_fbPixel_idle hs hcode, hx, hy, ht]
  · rw [exec_fbPixel_idle hts hcode, hx, hy, ht, State.complete_writePixel,
      State.writePixel_writePixel hmem]
    rfl

/-! ### Refusals -/

theorem State.fetch_idle {s : State} (hm : s.refused = none) (hs : s.seq = .idle) :
    s.fetch = s.fetchRequest := by
  simp [State.fetch, hm, hs]

/-- Settles O5: the request is fetched as its instruction. -/
theorem idleStepRunsDecodedRequest : Obligations.IdleStepRunsDecodedRequest := by
  intro s r rest i hm hs hr hd
  simp [step, State.fetch_idle hm hs, State.fetchRequest, hr, hd, State.takeRequest]

/-- Settles O6: the request is fetched as its refusal. -/
theorem idleStepRefusesUndecodable : Obligations.IdleStepRefusesUndecodable := by
  intro s r rest why hm hs hr hd
  simp [step, State.fetch_idle hm hs, State.fetchRequest, hr, hd, State.takeRequest, State.refuse]

/-- Settles O41: the colour code, the index or `LIFE` refuses the request. -/
theorem refusedRequestsOnlyMark : Obligations.RefusedRequestsOnlyMark := by
  intro s hs
  have illegal : ∀ o : Opr, o.legalIn s.life = false →
      Host.Outcome.next (φ := Fault) (ρ := Refusal) (s.request o) =
        .next (s.refuse .illegalInLife) :=
    fun o h => congrArg _ (State.request_illegal hs h)
  refine ⟨exec_fbPixel_code3 hs, exec_clrTorgb_code3 hs, ?_, fun hl => illegal .init ?_,
    fun hl => illegal .update ?_, fun hl => illegal .poweroff ?_⟩
  · intro i p hi
    rw [exec_fbRdbyte_idle hs, if_neg (by omega)]
    rfl
  all_goals rw [hl]; rfl

/-- Why a decoded request is refused by an idle block (30_encoding.md R88 (c) to (e)). -/
inductive RefusalCause (s : State) : Instr → RefuseReason → Prop where
  | pixelColor (x y : Word) : RefusalCause s (.fbPixel x y 3) .reservedColor
  | torgbColor : RefusalCause s (.clrTorgb 3) .reservedColor
  | index (i : Word) (p : Plane) (h : s.params.n ≤ i.toNat) :
      RefusalCause s (.fbRdbyte i p) .indexOutOfRange
  | init (h : s.life = .active) : RefusalCause s .epdInit .illegalInLife
  | update (h : s.life = .inactive) : RefusalCause s .epdUpdate .illegalInLife
  | poweroff (h : s.life = .inactive) : RefusalCause s .epdPoweroff .illegalInLife

@[simp] theorem State.writePixel_refused (s : State) (x y : Int) (c : Color) :
    (s.writePixel x y c).refused = s.refused := by
  obtain ⟨-, h⟩ | ⟨i, m, -, h⟩ := s.writePixel_cases x y c <;> simp [h]

theorem State.request_marks {s : State} (hs : s.seq = .idle) (o : Opr) :
    (o.legalIn s.life = false ∧ s.request o = s.refuse .illegalInLife) ∨
      (s.request o).refused = s.refused := by
  cases h : o.legalIn s.life with
  | false => exact .inl ⟨rfl, s.request_illegal hs h⟩
  | true => exact .inr (by rw [s.request_legal hs h, State.accept_refused])

/-- What a decoded request does to the mark of an idle block: it sets it alone and for a cause, or
keeps it. -/
inductive MarkEffect (s : State) (i : Instr) : State → Prop where
  | refused (why : RefuseReason) (h : RefusalCause s i why) : MarkEffect s i (s.refuse why)
  | kept (t : State) (h : t.refused = s.refused) : MarkEffect s i t

/-- An idle block refuses a decoded request only for a cause of 30_encoding.md R88 (c) to (e). -/
theorem exec_markEffect {i : Instr} {s t : State} (hi : i.IsHost) (hs : s.seq = .idle)
    (h : exec i s = .next t) : MarkEffect s i t := by
  have lifecycle : ∀ o, (o.legalIn s.life = false → RefusalCause s i .illegalInLife) →
      MarkEffect s i (s.request o) := by
    intro o cause
    obtain ⟨hl, hq⟩ | hq := State.request_marks hs o
    · exact hq ▸ .refused _ (cause hl)
    · exact .kept _ hq
  cases i with
  | epdInit =>
    cases h
    refine lifecycle .init fun hl => .init ?_
    cases hlife : s.life <;> simp_all [Opr.legalIn]
  | epdUpdate =>
    cases h
    refine lifecycle .update fun hl => .update ?_
    cases hlife : s.life <;> simp_all [Opr.legalIn]
  | epdPoweroff =>
    cases h
    refine lifecycle .poweroff fun hl => .poweroff ?_
    cases hlife : s.life <;> simp_all [Opr.legalIn]
  | epdHwreset =>
    cases h
    refine lifecycle .hwreset fun hl => ?_
    cases hlife : s.life <;> simp [Opr.legalIn, hlife] at hl
  | fbPixel x y c =>
    by_cases hc : c = 3
    · subst hc
      rw [exec_fbPixel_code3 hs] at h
      cases h
      exact .refused _ (.pixelColor x y)
    · obtain ⟨col, hcol, -⟩ := exists_colorOfCode_bits hc
      rw [exec_fbPixel_idle hs hcol] at h
      cases h
      exact .kept _ (by simp)
  | clrTorgb c =>
    by_cases hc : c = 3
    · subst hc
      rw [exec_clrTorgb_code3 hs] at h
      cases h
      exact .refused _ .torgbColor
    · obtain ⟨col, hcol, -⟩ := exists_colorOfCode_bits hc
      rw [exec_clrTorgb_idle hs hcol] at h
      cases h
      exact .kept _ rfl
  | fbRdbyte k p =>
    rw [exec_fbRdbyte_idle hs] at h
    cases h
    split
    · exact .kept _ rfl
    · next hk => exact .refused _ (.index k p (Nat.not_lt.1 hk))
  | fbNew | fbSetrot | fbGetrot | fbSize | clrFromrgb | clrFrommono =>
    cases h
    rw [State.whenIdle_idle hs]
    exact .kept _ rfl
  | softReset | inputTemp | activeTemp | panelSetting | bufBlack | bufRed | powerOn | refresh
  | powerOff => cases hi

/-- The decoder refuses an unassigned `OP` or a reserved bit, and nothing else (30_encoding.md R88
(a), (b)). -/
theorem decodeRequest_error {r : Request} {why : RefuseReason} (h : decodeRequest r = .error why) :
    why = .unassignedOp ∨ why = .reservedOperand := by
  obtain ⟨row, -, -, ⟨_, _, hd⟩ | ⟨-, hd⟩⟩ | ⟨-, hd⟩ := followsRow_or_unassigned r
  · cases h.symm.trans hd
  · exact .inr (Except.error.inj (h.symm.trans hd))
  · exact .inl (Except.error.inj (h.symm.trans hd))

/-- Settles O42: the mark is set by the decoder or by the request's own check. -/
theorem markHasListedCause : Obligations.MarkHasListedCause := by
  intro s t why h hmark
  obtain ⟨hm, hc⟩ := step_cases h
  cases hc with
  | waiting => cases hm.symm.trans hmark
  | running o k off hs e => cases hm.symm.trans ((s.runEntry_sameStore e).refused.symm.trans hmark)
  | rejected hs r rest hr why' hd =>
    obtain rfl : why' = why := Option.some.inj hmark
    refine ⟨hs, r, rest, hr, rfl, ?_⟩
    obtain ⟨-, hunassigned, hreserved⟩ := decoderFollowsOpcodeTable r
    obtain rfl | rfl := decodeRequest_error hd
    · exact hunassigned.1 hd
    · exact hreserved.1 hd
  | taken hs r rest hr i hd _ he _ =>
    cases exec_markEffect (s := s.takeRequest rest) (decodeRequest_isHost hd) hs he with
    | kept _ hkept => cases hm.symm.trans (hkept.symm.trans hmark)
    | refused why' hcause =>
      obtain rfl : why' = why := Option.some.inj hmark
      refine ⟨hs, r, rest, hr, rfl, ?_⟩
      cases hcause with
      | pixelColor x y => exact .inl ⟨x, y, hd⟩
      | torgbColor => exact .inr hd
      | index i p hi => exact ⟨i, p, hd, hi⟩
      | init hl => exact .inl ⟨hl, hd⟩
      | update hl => exact .inr ⟨hl, .inl hd⟩
      | poweroff hl => exact .inr ⟨hl, .inr hd⟩

/-! ### Frames -/

/-- Settles O51: away from the frame's steps there is no entry to run. -/
theorem frameElsewhereRefused : Obligations.FrameElsewhereRefused := by
  intro f s h
  suffices hnone : s.frameEntry? f = none by rw [exec_frame, State.emitFrame, hnone]
  cases hs : s.seq with
  | idle => simp only [State.frameEntry?, hs]
  | run o k off =>
    have hc : ¬ frameCovers f o k = true := by
      rw [frameCovers_iff]
      rintro ⟨rfl, hk⟩
      exact h k off hs hk
    simp only [State.frameEntry?, hs, if_neg hc]

/-- The entry is a transfer. -/
def Entry.isXfer : Entry → Bool
  | .xfer _ => true
  | .dc _ | .rst _ | .delay _ | .busy | .fin _ => false

/-- Step `k` of operation `o` is the opcode step or the payload step of a frame. -/
def xferAt (o : Opr) (k : Nat) : Bool :=
  match frameAt o k with
  | some f => decide (k = frameFirst f + 1 ∨ k = frameFirst f + 3)
  | none => false

/-- The transfers of a step table are the frames' (43_lifecycle.md R186, R190, R195, R199). -/
theorem State.table_isXfer (s : State) (o : Opr) :
    (s.table o).map Entry.isXfer = (List.range (s.table o).length).map (xferAt o) := by
  rw [s.table_length]
  cases o <;> rfl

theorem State.isXfer_of_entry {s : State} {o : Opr} {k : Nat} {e : Entry}
    (he : (s.table o)[k]? = some e) : e.isXfer = xferAt o k := by
  have hk : k < (s.table o).length := (List.getElem?_eq_some_iff.1 he).1
  have hmap : ((s.table o).map Entry.isXfer)[k]? = some e.isXfer := by
    rw [List.getElem?_map, he, Option.map_some]
  rw [s.table_isXfer, List.getElem?_map, List.getElem?_range hk, Option.map_some] at hmap
  exact (Option.some.inj hmap).symm

/-- A frame begins with its `SEND`: two transfers, each behind the `DC` entry that frames it
(42_panel_link.md R158). -/
theorem State.frameEntries_send (s : State) (f : Frame) :
    ∃ tail, s.frameEntries f =
      .dc false :: .xfer [f.opcode s.params.opc] :: .dc true :: .xfer (s.payload f) :: tail :=
  ⟨_, rfl⟩

/-- The line a `DC` entry drove last (10_state.md R27). -/
theorem lastDc_take_of_dc {es : List Entry} {k : Nat} {v : Bool} (h : es[k]? = some (.dc v)) :
    lastDc (es.take (k + 1)) = some v := by
  rw [List.take_add_one, h, Option.toList_some, lastDc_concat]
  rfl

/-- A transfer of a table stands at the opcode or the payload of a frame, under the `DC` level the
frame gives it (42_panel_link.md R158). -/
theorem State.table_xfer {s : State} {o : Opr} {k : Nat} {p : List Byte}
    (he : (s.table o)[k]? = some (.xfer p)) :
    ∃ f, frameAt o k = some f ∧
      ((k = frameFirst f + 1 ∧ p = [f.opcode s.params.opc] ∧
          lastDc ((s.table o).take k) = some false) ∨
        (k = frameFirst f + 3 ∧ p = s.payload f ∧ lastDc ((s.table o).take k) = some true)) := by
  have hx : xferAt o k = true := (State.isXfer_of_entry he).symm
  cases hf : frameAt o k with
  | none => simp [xferAt, hf] at hx
  | some f =>
    have hplace : k = frameFirst f + 1 ∨ k = frameFirst f + 3 := by simpa [xferAt, hf] using hx
    obtain ⟨rfl, -, -⟩ := frameCovers_iff.1 (frameAt_covers hf)
    have at_frame : ∀ j < 4,
        (s.table (frameEmitter f))[frameFirst f + j]? = (s.frameEntries f)[j]? := by
      intro j hj
      rw [s.table_at_frame (frameCovers_iff.2 ⟨rfl, by omega, ?_⟩), Nat.add_sub_cancel_left]
      unfold frameLen
      split <;> omega
    obtain ⟨tail, hsend⟩ := s.frameEntries_send f
    simp only [hsend] at at_frame
    refine ⟨f, rfl, ?_⟩
    obtain rfl | rfl := hplace
    · cases he.symm.trans (at_frame 1 (by omega))
      exact .inl ⟨rfl, rfl, lastDc_take_of_dc (at_frame 0 (by omega))⟩
    · cases he.symm.trans (at_frame 3 (by omega))
      exact .inr ⟨rfl, rfl, lastDc_take_of_dc (at_frame 2 (by omega))⟩

/-- The next chunk of a transfer is a piece of it. -/
theorem State.nextChunk_infix (s : State) (p : List Byte) : s.nextChunk p <:+: p :=
  (List.take_prefix _ _).isInfix.trans (List.drop_suffix _ _).isInfix

/-- The next chunk of a transfer that is not over is not empty (42_panel_link.md R156). -/
theorem State.nextChunk_ne_nil {s : State} {p : List Byte} (h : s.seq.off < p.length) :
    s.nextChunk p ≠ [] := by
  rw [← List.length_pos_iff, s.nextChunk_length]
  exact chunkLen_pos (by omega)

/-- Only a transfer that is not over writes, and it writes its next chunk (42_panel_link.md R151). -/
theorem EntryEffect.xfer_of_wr {s t : State} {e : Entry} (h : EntryEffect s e t) {bytes : List Byte}
    {failed : Option Nat} (ht : t.transcript = s.transcript ++ [.wr bytes failed]) :
    ∃ p, e = .xfer p ∧ bytes = s.nextChunk p ∧ s.seq.off < p.length := by
  cases h with
  | xferMore p _ hlt => exact ⟨p, rfl, by simp_all, by omega⟩
  | xferLast p _ hlt => exact ⟨p, rfl, by simp_all, hlt⟩
  | xferErr p _ _ _ hlt => exact ⟨p, rfl, by simp_all, hlt⟩
  | _ => simp at ht

/-- No request appends an event (42_panel_link.md R150). -/
theorem HostEffect.transcript_kept_or_empty {s t : State} (h : HostEffect s t) :
    t.transcript = s.transcript ∨ t.transcript = [] := by
  cases h with
  | refused => exact .inl rfl
  | accepted | done => exact .inr rfl

/-- A step that appends an event is a step of a running operation. -/
theorem step_emits {s t : State} {ev : Event} (h : step s = .next t)
    (ht : t.transcript = s.transcript ++ [ev]) :
    ∃ o k off e, s.seq = .run o k off ∧ (s.table o)[k]? = some e ∧ EntryEffect s e t := by
  obtain ⟨-, hc⟩ := step_cases h
  cases hc with
  | waiting => simp at ht
  | rejected => simp at ht
  | taken _ r rest _ i _ _ _ heff =>
    obtain hq | hq := heff.transcript_kept_or_empty <;> simp [hq] at ht
  | running o k off hs e he => exact ⟨o, k, off, e, hs, he, s.runEntry_effect e⟩

/-- Settles O24: only a transfer writes, it stands in a frame, and the invariant has DC at the level
last driven. -/
theorem writesAreFramedByDc : Obligations.WritesAreFramedByDc := by
  intro s t bytes failed hi h ht
  obtain ⟨o, k, off, e, hs, he, eff⟩ := step_emits h ht
  obtain ⟨p, rfl, rfl, hoff⟩ := eff.xfer_of_wr ht
  have hdc : t.dcOut = s.dcOut := eff.dcOut_eq nofun
  have hne := State.nextChunk_ne_nil hoff
  have hpiece := s.nextChunk_infix p
  have hline := (hi.linesOk o k off hs).1
  obtain ⟨f, hf, ⟨hk, rfl, hlast⟩ | ⟨hk, rfl, hlast⟩⟩ := State.table_xfer he
  · have hlow : s.dcOut = .low := hline _ hlast
    have hall := (List.sublist_singleton.1 hpiece.sublist).resolve_left hne
    exact ⟨o, k, off, f, hs, hf, .inl ⟨hk, hall, hlow, hdc.trans hlow⟩⟩
  · have hhigh : s.dcOut = .high := hline _ hlast
    exact ⟨o, k, off, f, hs, hf, .inr ⟨hk, hpiece, hne, hhigh, hdc.trans hhigh⟩⟩

end Sys2Proof.Machine
end

/-! SUPPORT. Proofs for the statements of 40_color.md: the fixed table of `CLR.TORGB`, and the round trip
through `CLR.FROMRGB`. -/

section
namespace Sys2Proof.Machine

open Sys2Proof

/-- Settles O25: codes 0, 1 and 2 are colours, so each request completes with its colour's value. -/
theorem clrTorgbAnswersTable : Obligations.ClrTorgbAnswersTable := by
  intro s hs
  exact ⟨exec_clrTorgb_idle hs (col := .white) rfl, exec_clrTorgb_idle hs (col := .black) rfl,
    exec_clrTorgb_idle hs (col := .red) rfl⟩

/-- A code that stands for a colour is that colour's code (30_encoding.md R73). -/
theorem colorCode_of_colorOfCode {c : BitVec 2} {col : Color} (h : colorOfCode c = some col) :
    colorCode col = c := by
  unfold colorOfCode at h
  split_ifs at h with hwhite hblack hred
  · cases h; exact hwhite.symm
  · cases h; exact hblack.symm
  · cases h; exact hred.symm

/-- `CLR.FROMRGB` of the result word that `CLR.TORGB` gives for a colour answers the colour's code, under
every classifier (40_color.md R104 L2). -/
theorem exec_clrFromrgb_toRgb {s : State} (hs : s.seq = .idle) (col : Color) :
    exec (.clrFromrgb (((toRgb col).setWidth 32 : Word).setWidth 24)) s =
      .next (s.complete (colorResult col) 0) := by
  rw [exec_clrFromrgb_idle hs, BitVec.setWidth_setWidth_of_le _ (by decide), BitVec.setWidth_eq,
    classifyRgb_toRgb]

/-- Settles O29: every classifier gives each value of the fixed table its colour back; the default one
takes 0x808080 for White, whose table value is 0xFFFFFF. -/
theorem colourRoundTrip : Obligations.ColourRoundTrip := by
  constructor
  · intro s c hs hc
    obtain ⟨col, hcol, -⟩ := exists_colorOfCode_bits hc
    refine ⟨_, _, exec_clrTorgb_idle hs hcol, rfl, _,
      exec_clrFromrgb_toRgb (s := s.complete _ 0) hs col, ?_⟩
    rw [State.complete_response, colorResult, colorCode_of_colorOfCode hcol]
    rfl
  · intro s hs hclass
    have hgrey : colorResult (classifyRgb s.params.classifier 0x808080) = 0 := by
      rw [hclass]
      decide
    refine ⟨s.complete 0 0, ?_, rfl, _,
      exec_clrTorgb_idle (s := s.complete 0 0) hs (col := .white) rfl, ?_⟩
    · rw [exec_clrFromrgb_idle hs, hgrey]
    · rw [State.complete_response]
      decide

end Sys2Proof.Machine
end

/-! SUPPORT. Proofs for the statements of 41_framebuffer.md: `FB.NEW`, the rotation map, clipping, the
plane bits of each colour, and what two pixel writes leave. -/

section
namespace Sys2Proof.Machine

open Sys2Proof

/-- Settles O30: the request completes on the new framebuffer, whose planes list no byte. -/
theorem fbNewZeroesPlanes : Obligations.FbNewZeroesPlanes := by
  intro s hs
  refine ⟨s.newFramebuffer.complete 0 0, congrArg Host.Outcome.next (State.whenIdle_idle hs _),
    ?_, rfl, rfl⟩
  intro p i
  cases p <;> rfl

/-! ### The rotation map -/

/-- Settles O59: each size is a row of the definition. -/
theorem logicalSizeFollowsRotation : Obligations.LogicalSizeFollowsRotation :=
  fun _ _ => ⟨rfl, rfl, rfl, rfl⟩

/-- Settles O35: under each rotation the two rows are the same two linear equations. -/
theorem rotationMapIsBijective : Obligations.RotationMapIsBijective := by
  intro w h r x y px py inv
  refine ⟨?_, onPanel_phys_iff w h r x y⟩
  cases r <;> simp only [inv, phys, Prod.mk.injEq] <;> omega

/-- Different coordinates are mapped to different pixels (41_framebuffer.md R127). -/
theorem phys_injective {w h : Nat} {r : Rotation} {x y x' y' : Int}
    (heq : phys w h r x y = phys w h r x' y') : (x, y) = (x', y') := by
  obtain ⟨undo, -⟩ := rotationMapIsBijective w h r x y (phys w h r x' y').1 (phys w h r x' y').2
  obtain ⟨undo', -⟩ := rotationMapIsBijective w h r x' y' (phys w h r x' y').1 (phys w h r x' y').2
  exact (undo.1 heq).symm.trans (undo'.1 rfl)

/-! ### Clipping -/

/-- A pixel write is clipped exactly off the logical surface (41_framebuffer.md R131). -/
theorem State.pixelCell_eq_none_iff (s : State) (x y : Int) :
    s.pixelCell x y = none ↔
      ¬ (0 ≤ x ∧ x < (logicalSize s.params.w s.params.h s.rot).1 ∧
         0 ≤ y ∧ y < (logicalSize s.params.w s.params.h s.rot).2) := by
  rw [← onPanel_phys_iff]
  simp only [State.pixelCell, ite_eq_right_iff, reduceCtorEq, imp_false]

/-- A clipped pixel write changes nothing (41_framebuffer.md R131). -/
theorem State.writePixel_of_clipped {s : State} {x y : Int} (h : s.pixelCell x y = none)
    (c : Color) : s.writePixel x y c = s := by
  rw [State.writePixel, h]

/-- Settles O34: the pixel write is clipped, so the request only completes. -/
theorem fbPixelClipsOffSurface : Obligations.FbPixelClipsOffSurface := by
  intro s x y c hs hc hoff
  obtain ⟨col, hcol, -⟩ := exists_colorOfCode_bits hc
  have hcell : s.pixelCell (coord x) (coord y) = none := (s.pixelCell_eq_none_iff _ _).2 hoff
  rw [exec_fbPixel_idle hs hcol, State.writePixel_of_clipped hcell]
  rfl

/-! ### The plane bits of a colour -/

/-- A written byte has the value at the bits of the mask and the old bits elsewhere (41_framebuffer.md
R129). -/
theorem putBits_getElem (b m : Byte) (v : Bool) {k : Nat} (hk : k < 8) :
    (putBits b m v)[k] = if m[k] then v else b[k] := by
  cases v <;> cases hm : m[k] <;> simp [putBits, hm]

@[simp] theorem putBits_false (b m : Byte) : putBits b m false = b &&& ~~~m := by
  simp [putBits]

@[simp] theorem putBits_true (b m : Byte) : putBits b m true = b ||| m := by
  ext k hk
  cases hm : m[k] <;> simp [putBits_getElem, hm]

/-- The bits under the mask are the written ones (41_framebuffer.md R129). -/
theorem putBits_and_mask (b m : Byte) (v : Bool) : putBits b m v &&& m = if v then m else 0 := by
  ext k hk
  cases v <;> cases hm : m[k] <;> simp [hm]

/-- The plane bits of a colour are the bits of its code (30_encoding.md R73, 41_framebuffer.md R130). -/
theorem planeBits_of_colorOfCode {c : BitVec 2} {col : Color} (h : colorOfCode c = some col) :
    blackBit col = c.getLsbD 0 ∧ redBit col = c.getLsbD 1 := by
  have hc : c ≠ 3 := by
    rintro rfl
    cases h
  obtain ⟨col', hcol', hbits⟩ := exists_colorOfCode_bits hc
  cases h.symm.trans hcol'
  exact hbits

/-- Settles O60, from the bytes of each plane after a pixel write. -/
theorem planeBitsFollowColour : Obligations.PlaneBitsFollowColour := by
  refine ⟨rfl, rfl, rfl, fun s i m hmem => ?_⟩
  have hread : ∀ p col, (s.putPixel i m col).readByte p i =
      putBits (s.readByte p i) m (match p with | .black => blackBit col | .red => redBit col) :=
    fun p col => (State.putPixel_read hmem i m col p i).trans (if_pos rfl)
  refine ⟨?_, ?_, ?_, fun c col hcol => ?_⟩
  · simp [hread, blackBit, redBit]
  · simp [hread, blackBit, redBit]
  · simp [hread, blackBit, redBit]
  obtain ⟨hblack, hred⟩ := planeBits_of_colorOfCode hcol
  refine ⟨?_, ?_, ?_⟩
  · rw [hread, putBits_and_mask, hblack]
  · rw [hread, putBits_and_mask, hred]
  · intro p j hj
    rw [State.putPixel_read hmem, if_neg hj]

/-! ### Two pixel writes -/

/-- Writes to disjoint bits of a byte commute. -/
theorem putBits_comm {m k : Byte} (h : m &&& k = 0) (b : Byte) (u v : Bool) :
    putBits (putBits b m u) k v = putBits (putBits b k v) m u := by
  ext j hj
  have hbit : (m[j] && k[j]) = false := by
    rw [← BitVec.getElem_and, h]
    simp
  simp only [putBits_getElem]
  exact ite_ite_comm _ _ _ _ fun hk hm => by simp [hk, hm] at hbit

/-- The masks of two columns are one mask or have no common bit (20_memory.md R53). -/
theorem bitMask_and_of_ne {px px' : Nat} (h : bitMask px ≠ bitMask px') :
    bitMask px &&& bitMask px' = 0 := by
  have hplace : ¬ 7 - px' % 8 = 7 - px % 8 := by
    intro he
    exact h (by rw [bitMask_eq_twoPow, bitMask_eq_twoPow, he])
  rw [bitMask_eq_twoPow px', BitVec.and_twoPow, bitMask_getLsbD]
  simp [hplace]

/-- A pixel write that is not clipped has its address from a pixel of the panel (20_memory.md R52,
41_framebuffer.md R131). -/
theorem State.exists_pixel_of_cell {s : State} {x y : Int} {i : Nat} {m : Byte}
    (h : s.pixelCell x y = some (i, m)) :
    ∃ px py : Nat, phys s.params.w s.params.h s.rot x y = (↑px, ↑py) ∧ px < s.params.w ∧
      byteIndex s.params.w px py = i ∧ bitMask px = m := by
  simp only [State.pixelCell, Option.ite_none_right_eq_some, Option.some.injEq,
    Prod.mk.injEq] at h
  obtain ⟨⟨hx0, hx, hy0, hy⟩, hi, hm⟩ := h
  exact ⟨_, _, by rw [Int.toNat_of_nonneg hx0, Int.toNat_of_nonneg hy0], by omega, hi, hm⟩

/-- Two coordinates with a byte in common have no bit of it in common (20_memory.md R52,
41_framebuffer.md R127). -/
theorem State.pixelCell_disjoint {s : State} (hw : s.params.w % 8 = 0) {x y x' y' : Int}
    (hne : (x, y) ≠ (x', y')) {i i' : Nat} {m m' : Byte} (hq : s.pixelCell x y = some (i, m))
    (hq' : s.pixelCell x' y' = some (i', m')) (hi : i = i') : m &&& m' = 0 := by
  obtain ⟨px, py, hphys, hx, rfl, rfl⟩ := State.exists_pixel_of_cell hq
  obtain ⟨px', py', hphys', hx', rfl, rfl⟩ := State.exists_pixel_of_cell hq'
  refine bitMask_and_of_ne fun hm => hne ?_
  obtain ⟨rfl, rfl⟩ := pixelAddress_injective hw hx hx' hi hm
  exact phys_injective (hphys.trans hphys'.symm)

/-- Two states with canonical planes, equal but for the planes, are equal when each byte is. -/
theorem State.eq_of_readByte {s t : State} (hs : MemOk s) (ht : MemOk t)
    (hrest : s = { t with black := s.black, red := s.red })
    (hread : ∀ p i, s.readByte p i = t.readByte p i) : s = t := by
  obtain ⟨wb, wr, -⟩ := hs
  obtain ⟨wb', wr', -⟩ := ht
  have hblack : s.black = t.black := Mem.ext_of_read wb wb' (hread .black)
  have hred : s.red = t.red := Mem.ext_of_read wr wr' (hread .red)
  rw [hblack, hred] at hrest
  exact hrest

/-- Colours put on disjoint bits commute (41_framebuffer.md R129). -/
theorem State.putPixel_comm {s : State} (h : MemOk s) {i j : Nat} (hi : i < s.params.n)
    (hj : j < s.params.n) {m k : Byte} (hdis : i = j → m &&& k = 0) (c d : Color) :
    (s.putPixel i m c).putPixel j k d = (s.putPixel j k d).putPixel i m c := by
  have hc := State.putPixel_memOk (m := m) c h hi
  have hd := State.putPixel_memOk (m := k) d h hj
  refine State.eq_of_readByte (State.putPixel_memOk d hc hj) (State.putPixel_memOk c hd hi) rfl ?_
  intro p a
  simp only [State.putPixel_read hc, State.putPixel_read hd, State.putPixel_read h]
  by_cases hij : i = j
  · subst hij
    simp only [if_true, putBits_comm (hdis rfl)]
    split <;> rfl
  · simp only [hij, Ne.symm hij, if_false]
    exact ite_ite_comm _ _ _ _ fun haj hai => hij (hai.symm.trans haj)

/-- A pixel write moves no pixel's place. -/
theorem State.pixelCell_writePixel (s : State) (x y : Int) (c : Color) (x' y' : Int) :
    (s.writePixel x y c).pixelCell x' y' = s.pixelCell x' y' :=
  State.pixelCell_congr (s.writePixel_params x y c) (s.writePixel_rot x y c) x' y'

/-- Pixel writes at different coordinates commute (41_framebuffer.md R129, R131). -/
theorem State.writePixel_comm {s : State} (h : MemOk s) (hw : s.params.w % 8 = 0) {x y x' y' : Int}
    (hne : (x, y) ≠ (x', y')) (c d : Color) :
    (s.writePixel x y c).writePixel x' y' d = (s.writePixel x' y' d).writePixel x y c := by
  have hcell := s.pixelCell_writePixel x' y' d x y
  have hcell' := s.pixelCell_writePixel x y c x' y'
  cases hq : s.pixelCell x y with
  | none => rw [State.writePixel_of_clipped hq, State.writePixel_of_clipped (hcell.trans hq)]
  | some q =>
    cases hq' : s.pixelCell x' y' with
    | none => rw [State.writePixel_of_clipped hq', State.writePixel_of_clipped (hcell'.trans hq')]
    | some q' =>
      rw [State.writePixel_of_cell (hcell'.trans hq'), State.writePixel_of_cell hq,
        State.writePixel_of_cell (hcell.trans hq), State.writePixel_of_cell hq']
      exact State.putPixel_comm h (State.pixelCell_lt hw hq) (State.pixelCell_lt hw hq')
        (State.pixelCell_disjoint hw hne hq hq') c d

/-- Settles O37: the second write to a bit stays, and different coordinates have no bit in common. -/
theorem pixelLastWriteWins : Obligations.PixelLastWriteWins := by
  constructor
  · intro s x y c c' hmem _
    exact State.writePixel_writePixel hmem x y c c'
  · intro s x y x' y' c c' hmem hlegal hne
    exact State.writePixel_comm hmem hlegal.1 hne c c'

/-! ### Drawing under a rotation -/

/-- A pixel write is the write at the mapped pixel under rotation 0 (41_framebuffer.md R128, R129). -/
theorem State.writePixel_setRot_deg0 (s : State) (x y : Int) (c : Color) :
    (s.setRot .deg0).writePixel (phys s.params.w s.params.h s.rot x y).1
        (phys s.params.w s.params.h s.rot x y).2 c =
      (s.writePixel x y c).setRot .deg0 := by
  have hcell : (s.setRot .deg0).pixelCell (phys s.params.w s.params.h s.rot x y).1
      (phys s.params.w s.params.h s.rot x y).2 = s.pixelCell x y := rfl
  cases hq : s.pixelCell x y with
  | none => rw [State.writePixel_of_clipped (hcell.trans hq), State.writePixel_of_clipped hq]
  | some q =>
    rw [State.writePixel_of_cell (hcell.trans hq), State.writePixel_of_cell hq]
    rfl

/-- Drawing the mapped pixels under rotation 0 leaves the state that drawing the pixels leaves, but for
`ROT` (41_framebuffer.md R136). -/
theorem State.foldl_writePixel_setRot_deg0 {p : Params} {r : Rotation}
    (pixels : List (Int × Int × Color)) {s : State} (hp : s.params = p) (hr : s.rot = r) :
    pixels.foldl
        (fun t q => t.writePixel (phys p.w p.h r q.1 q.2.1).1 (phys p.w p.h r q.1 q.2.1).2 q.2.2)
        (s.setRot .deg0) =
      (pixels.foldl (fun t q => t.writePixel q.1 q.2.1 q.2.2) s).setRot .deg0 := by
  induction pixels generalizing s with
  | nil => rfl
  | cons q pixels ih =>
    have hhead := s.writePixel_setRot_deg0 q.1 q.2.1 q.2.2
    rw [hp, hr] at hhead
    rw [List.foldl_cons, List.foldl_cons, hhead]
    exact ih ((s.writePixel_params _ _ _).trans hp) ((s.writePixel_rot _ _ _).trans hr)

/-- Settles O39: the two drawings differ in `ROT` alone. -/
theorem rotationRedrawsSamePlanes : Obligations.RotationRedrawsSamePlanes := by
  intro s r pixels rotated straight
  have hdraw : straight = rotated.setRot .deg0 :=
    State.foldl_writePixel_setRot_deg0 pixels (s := s.setRot r) rfl rfl
  rw [hdraw]
  exact ⟨rfl, rfl⟩

end Sys2Proof.Machine
end

/-! SUPPORT. Proofs for the statements of 42_panel_link.md: what each port call leaves, the steps of a
frame, the chunks of a transfer, and runs no call of which fails. -/

section
namespace Sys2Proof.Machine

open Sys2Proof

/-! ### Runs -/

/-- The first of `n + 1` steps, when it has a next state. -/
theorem runSteps_succ {s t : State} (h : step s = .next t) (n : Nat) :
    runSteps (n + 1) s = runSteps n t := by
  simp only [runSteps, h]

theorem runSteps_add {s t : State} {m : Nat} (h : runSteps m s = .next t) (n : Nat) :
    runSteps (m + n) s = runSteps n t := by
  induction m generalizing s with
  | zero =>
    cases h
    rw [Nat.zero_add]
  | succ m ih =>
    rw [Nat.succ_add]
    rw [runSteps] at h ⊢
    split at h
    · exact ih h
    · cases h
    · cases h

/-- Some number of steps leads from one state to the other. -/
def Reaches (s t : State) : Prop := ∃ n, runSteps n s = .next t

theorem Reaches.refl (s : State) : Reaches s s := ⟨0, rfl⟩

theorem Reaches.of_step {s t : State} (h : step s = .next t) : Reaches s t :=
  ⟨1, runSteps_succ h 0⟩

theorem Reaches.trans {s t u : State} (h : Reaches s t) (h' : Reaches t u) : Reaches s u := by
  obtain ⟨m, hm⟩ := h
  obtain ⟨n, hn⟩ := h'
  exact ⟨m + n, (runSteps_add hm n).trans hn⟩

/-! ### Delays, busy reads and `END` -/

/-- Settles O56: the step runs the entry, and neither entry makes a call that could fail. -/
theorem delayAndEndEntries : Obligations.DelayAndEndEntries := by
  intro s o k off hm hs
  have runs : ∀ e, (s.table o)[k]? = some e → step s = .next (s.runEntry e) :=
    fun e => runningStepInterpretsTable s o k off e hm hs
  refine ⟨fun n he => ?_, fun l he => runs _ he, fun he => runs _ he⟩
  rw [runs _ he]
  exact congrArg Host.Outcome.next (State.advance_of_run (s := s.emit (.delay n)) hs)

theorem State.callBusy_of_zero {s : State} (hb : s.busyAnswer = false) :
    s.callBusy = s.drawBusy.emit (.busy false) := by
  simp [State.callBusy, hb]

theorem State.callBusy_of_one {s : State} (hb : s.busyAnswer = true) :
    s.callBusy = (s.drawBusy.emit (.busy true)).advance := by
  simp [State.callBusy, hb]

/-- Settles O57, by induction on the number of reads: each one leaves the block where it stands. -/
theorem busyWaitHasNoBound : Obligations.BusyWaitHasNoBound := by
  intro s o k off n levels hm hs he hb
  induction n generalizing s with
  | zero => subst hb; simp [runSteps]
  | succ n ih =>
    have hread : s.busyAnswer = false := by simp [State.busyAnswer, hb, List.replicate_succ]
    have same := s.runEntry_sameStore .busy
    have hstep := runningStepInterpretsTable s o k off .busy hm hs he
    rw [State.runEntry, State.callBusy_of_zero hread] at same hstep
    rw [runSteps_succ hstep,
      ih _ (same.refused.trans hm) hs ((State.table_congr same o).symm ▸ he)
        (by simp [hb, List.replicate_succ])]
    simp [List.replicate_succ, Nat.add_assoc, Nat.add_comm 1 n]

/-! ### Errors -/

/-- Settles O58: of everything an entry can do, only a failed call answers an error. -/
theorem errorEndsOperation : Obligations.ErrorEndsOperation := by
  intro s t o k off r hs h hnone hr hst
  obtain ⟨entry, he, rfl⟩ := step_running hs h
  have eff := s.runEntry_effect entry
  generalize s.runEntry entry = t at eff hr
  cases eff with
  | dcErr v e d ha =>
    cases hr
    exact ⟨e, d, _, ha, rfl, rfl, rfl, rfl, .inl ⟨rfl, rfl, rfl, rfl, v, he, rfl⟩⟩
  | rstErr v e d ha =>
    cases hr
    exact ⟨e, d, _, ha, rfl, rfl, rfl, rfl, .inr (.inl ⟨rfl, rfl, rfl, rfl, v, he, rfl⟩)⟩
  | xferErr p e d ha _ =>
    cases hr
    exact ⟨e, d, _, ha, rfl, rfl, rfl, rfl, .inr (.inr ⟨rfl, rfl, rfl, rfl, p, _, _, he,
      s.nextChunk_infix p, Nat.min_le_right .., rfl⟩)⟩
  | fin => cases hr; exact absurd rfl hst
  | dcOk | rstOk | delay | xferOver | xferMore | xferLast | busyOver | busyStill =>
    exact nomatch hnone.symm.trans hr

/-! ### One write of a transfer -/

/-- The next answer is the head of the queue (00_scope.md R10). -/
theorem State.callAnswer_of_cons {s : State} {a : CallAnswer} {calls : List CallAnswer}
    (hc : s.callAnswers = a :: calls) : s.callAnswer = a := by
  simp [State.callAnswer, hc]

theorem State.nextChunk_of_run {s : State} {o : Opr} {k off : Nat} (hs : s.seq = .run o k off)
    (p : List Byte) : s.nextChunk p = (p.drop off).take (chunkLen s.chunk (p.length - off)) := by
  simp [State.nextChunk, hs, Seq.off]

/-- A transfer that is not over and whose write succeeds has sent its next chunk (42_panel_link.md
R156): it stays at its step, or goes on when that was the last chunk (10_state.md R31). -/
theorem State.callXfer_of_ok {s : State} {o : Opr} {k off : Nat} (hs : s.seq = .run o k off)
    {p : List Byte} (hoff : off < p.length) (ha : s.callAnswer = .ok) :
    s.callXfer p =
      { s with
        callAnswers := s.callAnswers.tail, draws := s.draws + 1
        transcript := s.transcript ++
          [.wr ((p.drop off).take (chunkLen s.chunk (p.length - off))) none]
        seq := if off + chunkLen s.chunk (p.length - off) < p.length
          then .run o k (off + chunkLen s.chunk (p.length - off)) else .run o (k + 1) 0 } := by
  have hso : s.seq.off = off := by rw [hs]; rfl
  have hlen := s.nextChunk_length p
  rw [hso] at hlen
  obtain ⟨hover, -⟩ | ⟨-, -, hx⟩ | ⟨e, d, -, he, -⟩ := s.callXfer_cases p
  · omega
  · rw [hx, hlen, State.nextChunk_of_run hs, State.chunkSent]
    simp only [State.emit_seq, State.drawCall_seq, hso]
    split
    · simp [State.setOff, hs, Seq.withOff]
    · exact State.advance_of_run hs
  · cases ha.symm.trans he

/-- A transfer that is not over and whose write fails ends with the collaborator's error
(42_panel_link.md R151, R159). -/
theorem State.callXfer_of_err {s : State} {o : Opr} {k off : Nat} (hs : s.seq = .run o k off)
    {p : List Byte} (hoff : off < p.length) {e : CollabError} {d : Nat}
    (ha : s.callAnswer = .err e d) :
    s.callXfer p =
      (s.drawCall.emit (.wr (s.nextChunk p) (some (min d (s.nextChunk p).length)))).raise
        .busError e := by
  have hso : s.seq.off = off := by rw [hs]; rfl
  have hnot : ¬ p.length ≤ s.seq.off := by omega
  simp [State.callXfer, hnot, ha]

/-- One byte is one write under every `CHUNK` (42_panel_link.md R156). -/
theorem chunkLen_one (chunk : Word) : chunkLen chunk 1 = 1 :=
  Nat.le_antisymm (chunkLen_le chunk 1) (chunkLen_pos Nat.one_pos)

/-! ### The steps of a frame -/

/-- The entries of a frame in its operation's table (43_lifecycle.md R184). -/
theorem State.table_frame {s : State} {f : Frame} {j : Nat} {e : Entry}
    (he : (s.frameEntries f)[j]? = some e) :
    frameCovers f (frameEmitter f) (frameFirst f + j) = true ∧
      (s.table (frameEmitter f))[frameFirst f + j]? = some e := by
  have hj : j < frameLen f := s.frameEntries_length f ▸ (List.getElem?_eq_some_iff.1 he).1
  have hc : frameCovers f (frameEmitter f) (frameFirst f + j) = true :=
    frameCovers_iff.2 ⟨rfl, by omega, by omega⟩
  exact ⟨hc, by rw [s.table_at_frame hc, Nat.add_sub_cancel_left, he]⟩

/-- At step `j` of its emission a frame's instruction runs its entry `j`. -/
theorem exec_frame_entry {f : Frame} {s : State} {j off : Nat} {e : Entry}
    (hs : s.seq = .run (frameEmitter f) (frameFirst f + j) off)
    (he : (s.frameEntries f)[j]? = some e) : exec f.instr s = .next (s.runEntry e) := by
  obtain ⟨hc, ht⟩ := State.table_frame he
  exact exec_frame_covers hs hc ht

/-- A frame that waits ends with a busy-wait (42_panel_link.md R162). -/
theorem State.frameEntries_busy {f : Frame} (hw : frameWaits f = true) (s : State) :
    (s.frameEntries f)[4]? = some .busy := by
  simp [State.frameEntries, sendEntries, hw]

/-- Settles O49: each step runs its entry of the frame, whose call succeeds. -/
theorem frameCallSucceeds : Obligations.FrameCallSucceeds := by
  intro f s k off hs
  refine ⟨?_, ?_, ?_, ?_, ?_⟩
  · rintro rfl ha
    rw [exec_frame_entry (j := 0) hs rfl]
    exact congrArg Host.Outcome.next ((State.callDc_of_ok ha _).trans (State.advance_of_run hs))
  · rintro rfl rfl ha
    rw [exec_frame_entry hs rfl, State.runEntry, State.callXfer_of_ok hs (by simp) ha]
    simp [chunkLen_one]
  · rintro rfl ha
    rw [exec_frame_entry hs rfl]
    exact congrArg Host.Outcome.next ((State.callDc_of_ok ha _).trans (State.advance_of_run hs))
  · rintro rfl hoff ha
    rw [exec_frame_entry hs rfl]
    exact congrArg Host.Outcome.next (State.callXfer_of_ok hs hoff ha)
  · rintro rfl hw
    rw [exec_frame_entry hs (s.frameEntries_busy hw)]
    refine congrArg Host.Outcome.next ?_
    cases hb : s.busyAnswer with
    | true => exact (State.callBusy_of_one hb).trans (State.advance_of_run hs)
    | false => exact State.callBusy_of_zero hb

/-- Settles O50: each step runs its entry of the frame, whose call fails. -/
theorem frameCallFails : Obligations.FrameCallFails := by
  intro f s k off e d hs ha
  constructor
  · rintro (rfl | rfl)
    · rw [exec_frame_entry (j := 0) hs rfl, decide_eq_false (by omega)]
      exact congrArg Host.Outcome.next (State.callDc_of_err ha false)
    · rw [exec_frame_entry hs rfl, decide_eq_true rfl]
      exact congrArg Host.Outcome.next (State.callDc_of_err ha true)
  · intro p hplace hoff
    have hexec : exec f.instr s = .next (s.callXfer p) := by
      obtain ⟨rfl, rfl⟩ | ⟨rfl, rfl⟩ := hplace <;> exact exec_frame_entry hs rfl
    refine ⟨s.nextChunk p, min d (s.nextChunk p).length, State.nextChunk_of_run hs p,
      Nat.min_le_right .., ?_⟩
    rw [hexec, State.callXfer_of_err hs hoff ha]
    rfl

/-! ### The chunks of a transfer -/

@[simp] theorem chunksFuel_nil (chunk : Word) (fuel : Nat) : chunksFuel chunk fuel [] = [] := by
  cases fuel <;> rfl

/-- The first chunk of a transfer, and the chunks of the rest (42_panel_link.md R156). -/
theorem chunksFuel_succ (chunk : Word) (fuel : Nat) {p : List Byte} (hp : p ≠ []) :
    chunksFuel chunk (fuel + 1) p =
      p.take (chunkLen chunk p.length) ::
        chunksFuel chunk fuel (p.drop (chunkLen chunk p.length)) := by
  cases p with
  | nil => exact absurd rfl hp
  | cons b bs => rfl

/-- The chunks of a transfer, put together, are its bytes. -/
theorem chunksFuel_flatten (chunk : Word) {fuel : Nat} {p : List Byte} (hf : p.length ≤ fuel) :
    (chunksFuel chunk fuel p).flatten = p := by
  induction fuel generalizing p with
  | zero => simp [List.eq_nil_of_length_eq_zero (Nat.le_zero.1 hf)]
  | succ fuel ih =>
    by_cases hp : p = []
    · simp [hp]
    · have := chunkLen_pos (chunk := chunk) (List.length_pos_iff.2 hp)
      rw [chunksFuel_succ chunk fuel hp, List.flatten_cons,
        ih (by rw [List.length_drop]; omega), List.take_append_drop]

/-- Without chunking, or when it fits, a transfer is one write (42_panel_link.md R156). -/
theorem chunksOf_eq_singleton {chunk : Word} {p : List Byte} (hp : p ≠ [])
    (h : chunk = 0 ∨ p.length ≤ chunk.toNat) : chunksOf chunk p = [p] := by
  have hlen : chunkLen chunk p.length = p.length := by
    unfold chunkLen
    split
    · rfl
    · next hc => exact Nat.min_eq_right (h.resolve_left hc)
  obtain ⟨fuel, hfuel⟩ := Nat.exists_eq_add_one.2 (List.length_pos_iff.2 hp)
  rw [chunksOf, hfuel, chunksFuel_succ chunk fuel hp, hlen, List.take_length, List.drop_length,
    chunksFuel_nil]

/-- A transfer of one byte is one write (42_panel_link.md R156). -/
theorem chunksOf_one (chunk : Word) (b : Byte) : chunksOf chunk [b] = [[b]] := by
  simp [chunksOf, chunksFuel, chunkLen_one]

/-- Write `j` of a chunked transfer starts at byte `j * CHUNK` (42_panel_link.md R156). -/
theorem chunksFuel_getElem? {chunk : Word} (hc : chunk ≠ 0) {fuel : Nat} {p : List Byte}
    (hf : p.length ≤ fuel) (j : Nat) :
    (chunksFuel chunk fuel p)[j]? =
      if j * chunk.toNat < p.length
      then some ((p.drop (j * chunk.toNat)).take chunk.toNat) else none := by
  induction fuel generalizing p j with
  | zero => simp [List.eq_nil_of_length_eq_zero (Nat.le_zero.1 hf)]
  | succ fuel ih =>
    by_cases hp : p = []
    · simp [hp]
    · have hpos := List.length_pos_iff.2 hp
      have hlen : chunkLen chunk p.length = min chunk.toNat p.length := if_neg hc
      have hstep := chunkLen_pos (chunk := chunk) hpos
      rw [chunksFuel_succ chunk fuel hp]
      cases j with
      | zero => simp [hpos, hlen]
      | succ j =>
        rw [List.getElem?_cons_succ, ih (by rw [List.length_drop]; omega), hlen, List.drop_drop,
          List.length_drop, Nat.succ_mul]
        by_cases hfits : p.length ≤ chunk.toNat
        · rw [if_neg (by omega), if_neg (by omega)]
        · rw [Nat.min_eq_left (by omega), Nat.add_comm chunk.toNat]
          exact if_congr (by omega) rfl rfl

/-- When `j` is below the quotient by `c` rounded up. -/
theorem lt_roundUp_iff {c : Nat} (hc : 0 < c) (len j : Nat) :
    j < (len + c - 1) / c ↔ j * c < len := by
  rw [Nat.lt_iff_add_one_le, Nat.le_div_iff_mul_le hc, Nat.add_mul]
  omega

/-- How many writes a chunked transfer makes: write `j` is made when byte `j * CHUNK` is there. -/
theorem lt_length_chunksOf_iff {chunk : Word} (hc : chunk ≠ 0) (p : List Byte) (j : Nat) :
    j < (chunksOf chunk p).length ↔ j * chunk.toNat < p.length := by
  rw [← Nat.not_le, ← List.getElem?_eq_none_iff, chunksOf, chunksFuel_getElem? hc (Nat.le_refl _)]
  split <;> simp [*]

theorem chunksOf_zero {p : List Byte} (hp : p ≠ []) : chunksOf 0 p = [p] :=
  chunksOf_eq_singleton hp (.inl rfl)

/-- The number of writes of a transfer (42_panel_link.md R157). -/
theorem chunksOf_length (chunk : Word) {p : List Byte} (hp : p ≠ []) :
    (chunksOf chunk p).length =
      if chunk = 0 ∨ p.length ≤ chunk.toNat then 1
      else (p.length + chunk.toNat - 1) / chunk.toNat := by
  split
  · next h => rw [chunksOf_eq_singleton hp h, List.length_singleton]
  · next h =>
    obtain ⟨hc, -⟩ := not_or.1 h
    refine eq_of_forall_lt_iff fun j => ?_
    rw [lt_length_chunksOf_iff hc, lt_roundUp_iff (BitVec.toNat_pos_of_ne_zero hc)]

/-- Write `j` of a transfer with chunking has `CHUNK` bytes or what is left from byte `j * CHUNK`. -/
theorem chunksOf_getElem?_length {chunk : Word} (hc : chunk ≠ 0) {p w : List Byte} {j : Nat}
    (hw : (chunksOf chunk p)[j]? = some w) :
    w.length = min chunk.toNat (p.length - j * chunk.toNat) := by
  rw [chunksOf, chunksFuel_getElem? hc (Nat.le_refl _)] at hw
  obtain ⟨-, hw⟩ := Option.ite_none_right_eq_some.1 hw
  cases hw
  rw [List.length_take, List.length_drop]

/-- Every write of a transfer but the last is `CHUNK` bytes long (42_panel_link.md R157). -/
theorem chunksOf_length_of_not_last {chunk : Word} {p w : List Byte} (hp : p ≠ []) {j : Nat}
    (hj : j + 1 < (chunksOf chunk p).length) (hw : (chunksOf chunk p)[j]? = some w) :
    w.length = chunk.toNat := by
  by_cases hc : chunk = 0
  · rw [hc, chunksOf_zero hp, List.length_singleton] at hj
    omega
  · rw [lt_length_chunksOf_iff hc, Nat.succ_mul] at hj
    rw [chunksOf_getElem?_length hc hw]
    omega

/-- The last write of a transfer has the bytes the others leave (42_panel_link.md R157). -/
theorem chunksOf_length_of_last {chunk : Word} {p w : List Byte} (hp : p ≠ [])
    (hw : (chunksOf chunk p).getLast? = some w) :
    w.length = p.length - ((chunksOf chunk p).length - 1) * chunk.toNat := by
  by_cases hc : chunk = 0
  · rw [hc, chunksOf_zero hp] at hw ⊢
    cases hw
    simp
  · have hall := (lt_length_chunksOf_iff hc p _).not.1 (Nat.lt_irrefl (chunksOf chunk p).length)
    rw [List.getLast?_eq_getElem?] at hw
    have hlt := (List.getElem?_eq_some_iff.1 hw).1
    rw [chunksOf_getElem?_length hc hw]
    obtain ⟨n, hn⟩ := Nat.exists_eq_add_one.2 (Nat.zero_lt_of_lt hlt)
    rw [hn, Nat.succ_mul] at hall
    rw [hn, Nat.add_sub_cancel]
    omega

/-- The rest of a transfer, no write of which fails, is one step for each chunk left
(42_panel_link.md R156). -/
theorem runSteps_xfer_rest {s : State} {chunk : Word} {o : Opr} {k off fuel : Nat} {p : List Byte}
    {calls : List CallAnswer} (hchunk : s.chunk = chunk) (hm : s.refused = none)
    (hs : s.seq = .run o k off) (he : (s.table o)[k]? = some (.xfer p)) (hoff : off < p.length)
    (hf : p.length ≤ off + fuel)
    (hc : s.callAnswers =
      List.replicate (chunksFuel chunk fuel (p.drop off)).length .ok ++ calls) :
    runSteps (chunksFuel chunk fuel (p.drop off)).length s = .next
      { s with
        seq := .run o (k + 1) 0
        transcript := s.transcript ++ (chunksFuel chunk fuel (p.drop off)).map (fun w => .wr w none)
        callAnswers := calls, draws := s.draws + (chunksFuel chunk fuel (p.drop off)).length } := by
  induction fuel generalizing s off with
  | zero => omega
  | succ fuel ih =>
    have hrest : p.drop off ≠ [] := by simpa using hoff
    have hpos := chunkLen_pos (chunk := chunk) (Nat.sub_pos_of_lt hoff)
    have hsame := s.runEntry_sameStore (.xfer p)
    rw [chunksFuel_succ chunk fuel hrest, List.drop_drop, List.length_drop,
      List.length_cons] at hc ⊢
    rw [List.replicate_succ] at hc
    have ha := State.callAnswer_of_cons hc
    rw [runSteps_succ (runningStepInterpretsTable s o k off _ hm hs he)]
    rw [State.runEntry, State.callXfer_of_ok hs hoff ha, hchunk] at hsame ⊢
    by_cases hmore : off + chunkLen chunk (p.length - off) < p.length
    · rw [if_pos hmore] at hsame ⊢
      rw [ih (hsame.chunk.trans hchunk) (hsame.refused.trans hm) rfl
        ((State.table_congr hsame o).symm ▸ he) hmore (by omega) (by simp [hc])]
      simp [Nat.add_assoc, Nat.add_comm 1]
    · rw [List.drop_eq_nil_of_le (Nat.le_of_not_lt hmore), chunksFuel_nil] at hc ⊢
      simp [runSteps, hc, hmore]

/-- A transfer, no write of which fails, is one step for each of its chunks (42_panel_link.md R156). -/
theorem runSteps_xfer {s : State} {o : Opr} {k : Nat} {p : List Byte} {calls : List CallAnswer}
    (hm : s.refused = none) (hs : s.seq = .run o k 0) (he : (s.table o)[k]? = some (.xfer p))
    (hp : p ≠ []) (hc : s.callAnswers = List.replicate (chunksOf s.chunk p).length .ok ++ calls) :
    runSteps (chunksOf s.chunk p).length s = .next
      { s with
        seq := .run o (k + 1) 0, transcript := s.transcript ++ xferEvents s.chunk p
        callAnswers := calls, draws := s.draws + (chunksOf s.chunk p).length } :=
  runSteps_xfer_rest rfl hm hs he (List.length_pos_iff.2 hp) (by rw [Nat.zero_add]) hc

/-- Settles O53: the writes are the chunks. -/
theorem transferSplitsIntoChunks : Obligations.TransferSplitsIntoChunks := by
  intro s o k p calls n hm hs he hp hc
  have hn : (chunksOf s.chunk p).length = n := chunksOf_length s.chunk hp
  rw [← hn] at hc ⊢
  exact ⟨chunksOf s.chunk p, rfl, chunksFuel_flatten s.chunk (Nat.le_refl _),
    fun j hj w hw => chunksOf_length_of_not_last hp hj hw,
    fun w hw => chunksOf_length_of_last hp hw,
    runSteps_xfer hm hs he hp hc⟩

/-! ### Runs along the entries of a table -/

/-- An entry whose steps are a fixed number: neither a busy-wait nor `END`. -/
def Entry.isPlain : Entry → Bool
  | .dc _ | .rst _ | .delay _ | .xfer _ => true
  | .busy | .fin _ => false

/-- The events of a plain entry, no call of which fails (42_panel_link.md R151 to R156). -/
def Entry.events (chunk : Word) : Entry → List Event
  | .dc v => [.dc v true]
  | .rst v => [.rst v true]
  | .delay n => [.delay n]
  | .xfer p => xferEvents chunk p
  | .busy | .fin _ => []

/-- How many answers a plain entry draws, when no call of it fails. -/
def Entry.calls (chunk : Word) : Entry → Nat
  | .dc _ | .rst _ => 1
  | .xfer p => (chunksOf chunk p).length
  | .delay _ | .busy | .fin _ => 0

/-- How many answers a list of plain entries draws. -/
def entriesCalls (chunk : Word) (es : List Entry) : Nat := (es.map (Entry.calls chunk)).sum

/-- `s` after the plain entries `es` from step `k` of operation `o`, no call of which failed, with the
answers `calls` left. -/
def State.afterEntries (s : State) (o : Opr) (k : Nat) (es : List Entry) (calls : List CallAnswer) :
    State :=
  { s with
    dcOut := s.dcOut.after (lastDc es), rstOut := s.rstOut.after (lastRst es)
    seq := .run o (k + es.length) 0
    transcript := s.transcript ++ es.flatMap (Entry.events s.chunk)
    callAnswers := calls, draws := s.draws + entriesCalls s.chunk es }

theorem State.afterEntries_table (s : State) (o : Opr) (k : Nat) (es : List Entry)
    (calls : List CallAnswer) (o' : Opr) : (s.afterEntries o k es calls).table o' = s.table o' :=
  State.table_congr ⟨rfl, rfl, rfl, rfl, rfl, rfl, rfl⟩ o'

theorem Level.after_lastDc_cons (l : Level) (e : Entry) (es : List Entry) :
    l.after (lastDc (e :: es)) = (l.after (lastDc [e])).after (lastDc es) := by
  cases e <;> cases h : lastDc es <;> simp [lastDc, Level.after, h]

theorem Level.after_lastRst_cons (l : Level) (e : Entry) (es : List Entry) :
    l.after (lastRst (e :: es)) = (l.after (lastRst [e])).after (lastRst es) := by
  cases e <;> cases h : lastRst es <;> simp [lastRst, Level.after, h]

/-- The state after one entry, and from there after the others. -/
theorem State.afterEntries_cons (s : State) (o : Opr) (k : Nat) (e : Entry) (es : List Entry)
    (calls calls' : List CallAnswer) :
    (s.afterEntries o k [e] calls).afterEntries o (k + 1) es calls' =
      s.afterEntries o k (e :: es) calls' := by
  simp [State.afterEntries, entriesCalls, Level.after_lastDc_cons _ e es,
    Level.after_lastRst_cons _ e es, Nat.add_assoc, Nat.add_comm 1]

/-- A transfer of any length, no write of which fails, is run to the next entry (42_panel_link.md
R156). -/
theorem reaches_xfer {s : State} {o : Opr} {k : Nat} {p : List Byte} {calls : List CallAnswer}
    (hm : s.refused = none) (hs : s.seq = .run o k 0) (he : (s.table o)[k]? = some (.xfer p))
    (hc : s.callAnswers = List.replicate (chunksOf s.chunk p).length .ok ++ calls) :
    Reaches s (s.afterEntries o k [.xfer p] calls) := by
  have hafter : s.afterEntries o k [.xfer p] calls =
      { s with
        seq := .run o (k + 1) 0, transcript := s.transcript ++ xferEvents s.chunk p
        callAnswers := calls, draws := s.draws + (chunksOf s.chunk p).length } := by
    simp [State.afterEntries, entriesCalls, Entry.calls, Entry.events, lastDc, lastRst, Level.after]
  rw [hafter]
  by_cases hp : p = []
  · subst hp hc
    have hover : s.callXfer [] = s.advance := if_pos (Nat.zero_le _)
    refine .of_step ((runningStepInterpretsTable s o k 0 _ hm hs he).trans ?_)
    rw [State.runEntry, hover, State.advance_of_run hs]
    simp [chunksOf, xferEvents]
  · exact ⟨_, runSteps_xfer hm hs he hp hc⟩

/-- A plain entry, no call of which fails, is run to the next entry. -/
theorem reaches_entry {s : State} {o : Opr} {k : Nat} {e : Entry} {calls : List CallAnswer}
    (hm : s.refused = none) (hs : s.seq = .run o k 0) (he : (s.table o)[k]? = some e)
    (hplain : e.isPlain = true)
    (hc : s.callAnswers = List.replicate (e.calls s.chunk) .ok ++ calls) :
    Reaches s (s.afterEntries o k [e] calls) := by
  cases e with
  | dc v =>
    have h := (dcEntryDrivesLine s o k 0 v hm hs he).1 (State.callAnswer_of_cons hc)
    rw [hc] at h
    exact .of_step h
  | rst v =>
    have h := (rstEntryDrivesLine s o k 0 v hm hs he).1 (State.callAnswer_of_cons hc)
    rw [hc] at h
    exact .of_step h
  | delay n =>
    subst hc
    exact .of_step ((delayAndEndEntries s o k 0 hm hs).1 n he)
  | xfer p => exact reaches_xfer hm hs he hc
  | busy | fin => cases hplain

/-- Plain entries that stand in the table from step `k`, no call of which fails, are run to the entry
after them. -/
theorem reaches_entries {s : State} {o : Opr} {k : Nat} {es : List Entry} {calls : List CallAnswer}
    (hm : s.refused = none) (hs : s.seq = .run o k 0)
    (he : ∀ j < es.length, (s.table o)[k + j]? = es[j]?) (hplain : es.all Entry.isPlain = true)
    (hc : s.callAnswers = List.replicate (entriesCalls s.chunk es) .ok ++ calls) :
    Reaches s (s.afterEntries o k es calls) := by
  induction es generalizing s k with
  | nil =>
    have hsame : s.afterEntries o k [] calls = s := by
      subst hc
      simp [State.afterEntries, lastDc, lastRst, Level.after, entriesCalls, ← hs]
    rw [hsame]
    exact .refl s
  | cons e es ih =>
    obtain ⟨hplain_e, hplain⟩ := Bool.and_eq_true_iff.1 hplain
    rw [entriesCalls, List.map_cons, List.sum_cons, List.replicate_add, List.append_assoc] at hc
    have hfirst := reaches_entry hm hs (he 0 (Nat.zero_lt_succ _)) hplain_e hc
    rw [← s.afterEntries_cons o k e es _ calls]
    refine hfirst.trans (ih hm rfl (fun j hj => ?_) hplain rfl)
    rw [State.afterEntries_table, Nat.add_assoc, Nat.add_comm 1]
    exact he (j + 1) (Nat.succ_lt_succ hj)

/-- The `SEND` of a frame stands in its operation's table (42_panel_link.md R158). -/
theorem State.table_send (s : State) (f : Frame) (j : Nat) (hj : j < 4) :
    (s.table (frameEmitter f))[frameFirst f + j]? =
      (sendEntries (f.opcode s.params.opc) (s.payload f))[j]? := by
  have hsend : (s.frameEntries f)[j]? = some _ :=
    (List.getElem?_append_left hj).trans (List.getElem?_eq_getElem hj)
  rw [(State.table_frame hsend).2, List.getElem?_eq_getElem hj]

theorem entriesCalls_sendEntries (chunk : Word) (op : Byte) (p : List Byte) :
    entriesCalls chunk (sendEntries op p) = sendCalls chunk p := by
  simp [entriesCalls, sendEntries, Entry.calls, sendCalls, chunksOf_one]
  omega

/-- The entries of `SEND(op, p)` leave its events and DC high (42_panel_link.md R158). -/
theorem State.afterEntries_sendEntries (s : State) (o : Opr) (k : Nat) (op : Byte) (p : List Byte)
    (calls : List CallAnswer) :
    s.afterEntries o k (sendEntries op p) calls =
      { s with
        dcOut := .high, seq := .run o (k + 4) 0
        transcript := s.transcript ++ sendEvents s.chunk op p
        callAnswers := calls, draws := s.draws + sendCalls s.chunk p } := by
  have hevents : (sendEntries op p).flatMap (Entry.events s.chunk) = sendEvents s.chunk op p := by
    simp [sendEntries, Entry.events, sendEvents, xferEvents, chunksOf_one]
  rw [State.afterEntries, hevents, entriesCalls_sendEntries]
  rfl

/-- Settles O52: the frame's table entries are run as the entries of its `SEND`. -/
theorem frameEmissionIsSend : Obligations.FrameEmissionIsSend := by
  intro f s calls hm hs hc
  rw [← entriesCalls_sendEntries] at hc
  have h := reaches_entries (es := sendEntries _ _) hm hs (s.table_send f) rfl hc
  rwa [State.afterEntries_sendEntries] at h

/-- Settles O48: the entries of the reset pulse, then `END(keep)`. -/
theorem hwresetPulsesReset : Obligations.HwresetPulsesReset := by
  intro s calls hm hs hc
  obtain ⟨-, -, -, haccept⟩ := lifecycleRequestAccepted s hs
  refine ⟨s.accept .hwreset, exists_and_left.2 ⟨haccept, ?_⟩⟩
  have hentries : ∀ j < resetPulse.length,
      ((s.accept .hwreset).table .hwreset)[0 + j]? = resetPulse[j]? := by
    intro j hj
    rw [Nat.zero_add]
    exact List.getElem?_append_left hj
  have hpulse := reaches_entries (s := s.accept .hwreset) hm rfl hentries rfl hc
  obtain ⟨-, -, hend⟩ := delayAndEndEntries
    ((s.accept .hwreset).afterEntries .hwreset 0 resetPulse calls) .hwreset 6 0 hm rfl
  have hstep := hend rfl
  rw [← hs] at hstep
  exact hpulse.trans (.of_step hstep)

end Sys2Proof.Machine
end

/-! SUPPORT. Proofs for the statements of 43_lifecycle.md: the step tables, what a running operation
leaves alone, and whole operations no call of which fails. -/

section
namespace Sys2Proof.Machine

open Sys2Proof

/-! ### The step tables and a running block -/

/-- Settles O9: the frames of each table, written out. -/
theorem stepTablesAreTheSpecs : Obligations.StepTablesAreTheSpecs :=
  fun _ => ⟨rfl, rfl, rfl, rfl⟩

/-- Settles O19: a running step runs an entry of its table, and no entry writes the store. -/
theorem runningStepKeepsStore : Obligations.RunningStepKeepsStore := by
  intro s t o k off hs h
  obtain ⟨e, -, rfl⟩ := step_running hs h
  have same := s.runEntry_sameStore e
  exact ⟨same.readByte, same.black, same.red, same.rot, same.requests, same.refused⟩

/-- A host request does what it does only in an idle block (43_lifecycle.md R181). -/
theorem exec_host_eq_whenIdle {i : Instr} (hi : i.IsHost) :
    ∃ f, ∀ s, exec i s = .next (s.whenIdle f) := by
  cases i with
  | epdInit | epdUpdate | epdPoweroff | epdHwreset | fbNew | fbSetrot | fbGetrot | fbSize | fbPixel
  | fbRdbyte | clrTorgb | clrFromrgb | clrFrommono => exact ⟨_, fun _ => rfl⟩
  | softReset | inputTemp | activeTemp | panelSetting | bufBlack | bufRed | powerOn | refresh
  | powerOff => cases hi

/-- Settles O43: a running block holds the request. -/
theorem requestHeldWhileRunning : Obligations.RequestHeldWhileRunning := by
  intro i s o k off hi hs
  obtain ⟨f, hf⟩ := exec_host_eq_whenIdle hi
  rw [hf, State.whenIdle_run hs]

/-! ### Runs along the parts of a table -/

/-- `s` with operation `o` at the start of step `k`: the levels of the lines, the events so far, the
answers and busy levels to come, and the draws made. -/
def State.midway (s : State) (o : Opr) (k : Nat) (dc rst : Level) (events : List Event)
    (calls : List CallAnswer) (levels : List Bool) (draws : Nat) : State :=
  { s with
    dcOut := dc, rstOut := rst, seq := .run o k 0, response := none, transcript := events
    callAnswers := calls, busyAnswers := levels, draws := draws }

/-- A request is accepted and runs to `t` when its table, from step 0, is run to `t`
(43_lifecycle.md R183). -/
theorem exists_run_of_reaches {i : Instr} {o : Opr} {s t : State}
    (haccept : exec i s = .next (s.accept o))
    (h : Reaches (s.midway o 0 s.dcOut s.rstOut [] s.callAnswers s.busyAnswers s.draws) t) :
    ∃ a m, exec i s = .next a ∧ runSteps m a = .next t :=
  ⟨s.accept o, exists_and_left.2 ⟨haccept, h⟩⟩

section

variable {s : State} {o : Opr} {k draws : Nat} {dc rst : Level} {events : List Event}
  {calls : List CallAnswer} {levels : List Bool}

theorem State.midway_table (o' : Opr) :
    (s.midway o k dc rst events calls levels draws).table o' = s.table o' :=
  State.table_congr ⟨rfl, rfl, rfl, rfl, rfl, rfl, rfl⟩ o'

/-- The entry of the table at which a running operation stands is the one its step runs. -/
theorem step_midway (hm : s.refused = none) {e : Entry} (he : (s.table o)[k]? = some e) :
    step (s.midway o k dc rst events calls levels draws) =
      .next ((s.midway o k dc rst events calls levels draws).runEntry e) :=
  runningStepInterpretsTable _ o k 0 e hm rfl (by rw [State.midway_table, he])

/-- Plain entries that stand in the table from step `k`, no call of which fails, are run to the
entry after them. -/
theorem reaches_plain (hm : s.refused = none) (es : List Entry) {rest : List Entry}
    (ht : (s.table o).drop k = es ++ rest) (hplain : es.all Entry.isPlain = true) :
    Reaches
      (s.midway o k dc rst events (List.replicate (entriesCalls s.chunk es) .ok ++ calls) levels
        draws)
      (s.midway o (k + es.length) (dc.after (lastDc es)) (rst.after (lastRst es))
        (events ++ es.flatMap (Entry.events s.chunk)) calls levels
        (draws + entriesCalls s.chunk es)) := by
  refine reaches_entries hm rfl (fun j hj => ?_) hplain rfl
  rw [State.midway_table, ← List.getElem?_drop, ht, List.getElem?_append_left hj]

/-- The `SEND` of a frame, no call of which fails, is run to the step after it (42_panel_link.md
R158). -/
theorem reaches_frame_send (hm : s.refused = none) (f : Frame) :
    Reaches
      (s.midway (frameEmitter f) (frameFirst f) dc rst events
        (List.replicate (sendCalls s.chunk (s.payload f)) .ok ++ calls) levels draws)
      (s.midway (frameEmitter f) (frameFirst f + 4) .high rst
        (events ++ sendEvents s.chunk (f.opcode s.params.opc) (s.payload f)) calls levels
        (draws + sendCalls s.chunk (s.payload f))) :=
  frameEmissionIsSend f _ calls hm rfl rfl

/-- The busy-wait of a frame, whose line reads 0 `zeros` times and then 1, is run to the step after
it (42_panel_link.md R160 to R162). -/
theorem reaches_frame_wait (hm : s.refused = none) (f : Frame) (hw : frameWaits f = true)
    (zeros : Nat) :
    Reaches
      (s.midway (frameEmitter f) (frameFirst f + 4) dc rst events calls
        (busyLevels zeros ++ levels) draws)
      (s.midway (frameEmitter f) (frameFirst f + 5) dc rst (events ++ busyEvents zeros) calls levels
        (draws + zeros + 1)) := by
  have he := (State.table_frame (s.frameEntries_busy hw)).2
  have hzeros : Reaches
      (s.midway (frameEmitter f) (frameFirst f + 4) dc rst events calls
        (busyLevels zeros ++ levels) draws)
      (s.midway (frameEmitter f) (frameFirst f + 4) dc rst
        (events ++ List.replicate zeros (.busy false)) calls (true :: levels) (draws + zeros)) :=
    ⟨zeros, busyWaitHasNoBound (s.midway ..) _ _ 0 zeros _ hm rfl
      (by rw [State.midway_table, he]) (List.append_assoc ..)⟩
  refine hzeros.trans (.of_step ?_)
  rw [step_midway hm he, State.runEntry, State.callBusy_of_one rfl, State.advance_of_run rfl]
  simp [State.midway, busyEvents]

/-- `END` of an operation that an idle block accepted is run to the idle block with its response
(43_lifecycle.md R184). -/
theorem reaches_finish (hm : s.refused = none) (hs : s.seq = .idle) (l : Option Life)
    (he : (s.table o)[k]? = some (.fin l)) :
    Reaches (s.midway o k dc rst events calls levels draws)
      { s with
        life := l.getD s.life, dcOut := dc, rstOut := rst, response := okResponse 0 0
        transcript := events, callAnswers := calls, busyAnswers := levels, draws := draws } := by
  rw [hs]
  exact .of_step (step_midway hm he)

end

/-! ### Whole operations -/

/-- Settles O45: DC high and the reset pulse, then the four frames of INIT and `END(1)`. -/
theorem initRunsToActive : Obligations.InitRunsToActive := by
  intro s calls levels zeros hm hs hl n hc hb
  obtain ⟨haccept, -⟩ := lifecycleRequestAccepted s hs
  have hdraws : s.draws + n + zeros + 1 =
      s.draws + 4 + sendCalls s.chunk [0x0E] + zeros + 1 + sendCalls s.chunk [0x19] +
        sendCalls s.chunk [0x02] + sendCalls s.chunk [0xCF, 0x8D] := by
    simp only [n]
    omega
  simp only [n, List.replicate_add, List.append_assoc] at hc
  refine exists_run_of_reaches (haccept hl) ?_
  rw [hc, hb, hdraws]
  refine (reaches_plain hm (.dc true :: resetPulse) rfl rfl).trans ?_
  refine (reaches_frame_send hm .softReset).trans ?_
  refine (reaches_frame_wait hm .softReset rfl zeros).trans ?_
  refine (reaches_frame_send hm .inputTemp).trans ?_
  refine (reaches_frame_send hm .activeTemp).trans ?_
  refine (reaches_frame_send hm .panelSetting).trans ?_
  exact reaches_finish hm hs (some .active) rfl

/-- Settles O46: the four frames of UPDATE, the last two with their busy-waits, and `END(keep)`. -/
theorem updateSendsBothPlanes : Obligations.UpdateSendsBothPlanes := by
  intro s calls levels zeros zeros' hm hs hl n hc hb
  obtain ⟨-, haccept, -⟩ := lifecycleRequestAccepted s hs
  have hdraws : s.draws + n + zeros + zeros' + 2 =
      s.draws + sendCalls s.chunk (s.planeBytes .black) + sendCalls s.chunk (s.planeBytes .red) +
        sendCalls s.chunk [0x00] + zeros + 1 + sendCalls s.chunk [0x00] + zeros' + 1 := by
    simp only [n]
    omega
  simp only [n, List.replicate_add, List.append_assoc] at hc
  refine exists_run_of_reaches (haccept hl) ?_
  rw [hc, hb, hdraws, List.append_assoc (busyLevels zeros)]
  refine (reaches_frame_send hm .bufBlack).trans ?_
  refine (reaches_frame_send hm .bufRed).trans ?_
  refine (reaches_frame_send hm .powerOn).trans ?_
  refine (reaches_frame_wait hm .powerOn rfl zeros).trans ?_
  refine (reaches_frame_send hm .refresh).trans ?_
  refine (reaches_frame_wait hm .refresh rfl zeros').trans ?_
  exact reaches_finish hm hs none rfl

/-- Settles O47: POWER_OFF and its busy-wait, both lines driven low, and `END(0)`. -/
theorem poweroffRunsToInactive : Obligations.PoweroffRunsToInactive := by
  intro s calls levels zeros hm hs hl n hc hb
  obtain ⟨-, -, haccept, -⟩ := lifecycleRequestAccepted s hs
  have hdraws : s.draws + n + zeros + 1 =
      s.draws + sendCalls s.chunk [0x00] + zeros + 1 + 2 := by
    simp only [n]
    omega
  simp only [n, List.replicate_add, List.append_assoc] at hc
  refine exists_run_of_reaches (haccept hl) ?_
  rw [hc, hb, hdraws]
  refine (reaches_frame_send hm .powerOff).trans ?_
  refine (reaches_frame_wait hm .powerOff rfl zeros).trans ?_
  refine (reaches_plain hm [.dc false, .delay 150, .rst false] rfl rfl).trans ?_
  exact reaches_finish hm hs (some .inactive) rfl

end Sys2Proof.Machine
end

/-! SUPPORT. Proofs for the statements of 70_reset_and_hazards.md: the values construction leaves, and
the invariant at reset. -/

section
namespace Sys2Proof.Machine

open Sys2Proof

/-! ### The free construction values -/

/-- The parameters reset takes are legal: an illegal free value is replaced (R240). -/
theorem Config.params_legal : Config.params.Legal := by
  unfold Config.params
  split
  · assumption
  · decide

/-- The chunk size reset takes is legal under its parameters: an illegal free value is replaced by 0,
which R7 always allows. -/
theorem Config.chunk_chunkLegal : Config.params.ChunkLegal Config.chunk := by
  unfold Config.chunk
  split
  · assumption
  · exact .inl rfl

/-! ### The state construction leaves -/

/-- Construction clears every byte of both planes (R241). -/
theorem State.construct_readByte (p : Params) (c : Word) (q : Plane) (i : Nat) :
    (State.construct p c).readByte q i = 0x00 := by
  cases q with
  | black | red => rfl

/-- Settles O11: reset takes legal values, and construction writes R241's table. -/
theorem resetLeavesSpecValues : Obligations.ResetLeavesSpecValues := by
  refine ⟨⟨_, _, Config.params_legal, Config.chunk_chunkLegal, rfl⟩, fun p c => ?_⟩
  have hzero := State.construct_readByte p c
  exact ⟨hzero .black, hzero .red, rfl, rfl, rfl, rfl, rfl, rfl, rfl, rfl, rfl⟩

/-! ### The invariant at reset -/

/-- Settles O13: every block constructed with legal values meets the invariant, and reset is one for
which nothing is asked or answered yet. -/
theorem resetMeetsInvariant : Obligations.ResetMeetsInvariant :=
  ⟨inv_started Config.params_legal Config.chunk_chunkLegal [] [] [],
    fun _ _ rs calls levels hp hc => inv_started hp hc rs calls levels⟩

end Sys2Proof.Machine
end
